-- ==== Sys2Proof/Word.lean ====
section
/-! DEFINITION. The byte, the one word type of the block (R8 of `spec/00_scope.md`: every byte value is an unsigned
integer 0..255), and the constant bytes of the wire formats (R81, R82 of `spec/30_encoding.md`). -/

namespace Sys2Proof

/-- One byte of a stream, of the reassembly buffer or of a packet (R8). -/
abbrev Byte := BitVec 8

/-- The resynchronization marker, byte 0 of every packet (R15, R81, R82). -/
def marker : Byte := 0xAA

/-- Byte 1 of a configuration command, and the trailer of an outbound data frame (R81, R82). -/
def tag : Byte := 0x55

end Sys2Proof
end

