-- ==== Sys2Proof/Syntax.lean ====
section
/-! DEFINITION. The operations of the block, one constructor per row of `spec/opcode_table.json` (R80, R85, R81 to R83
of `spec/30_encoding.md`). The block has no instruction set (R3): an operation is an event on its ports. -/

namespace Sys2Proof

/-- The rows of the table. A row's operands are the bits it carries beside its fixed ones: the byte consumed, the
request's port values, the fields of a header byte or of a packet. -/
inductive Instr where
  /-- `RST`, R251: an edge with `rst = 1`. -/
  | rst
  /-- `RX.IDLE`, R180: no byte is presented. -/
  | rxIdle
  /-- `RX.SKIP`, R181: a byte other than the marker, consumed in Searching. -/
  | rxSkip (b : Byte)
  /-- `RX.SYNC`, R182: the marker, consumed in Searching. -/
  | rxSync
  /-- `RX.ACCUM`, R183: a byte appended, the candidate incomplete. -/
  | rxAccum (b : Byte)
  /-- `RX.CFG_OK`, R184: a byte that completes a configuration-shaped candidate with a correct checksum. -/
  | rxCfgOk (b : Byte)
  /-- `RX.DROP_CKSUM`, R185: the same with a wrong checksum. -/
  | rxDropCksum (b : Byte)
  /-- `RX.FRAME`, R186: a byte that completes a data-shaped candidate of six bytes or more. -/
  | rxFrame (b : Byte)
  /-- `RX.DROP_SHORT`, R187: a byte that completes a data-shaped candidate of declared length 0. -/
  | rxDropShort (b : Byte)
  /-- `RX.DROP_HDR`, R188: a byte that completes a candidate by the fallback branch. -/
  | rxDropHdr (b : Byte)
  /-- `TX.CFG`, R144: a configuration request accepted, with the three codes on its ports. -/
  | txCfg (speed ftype mode : Byte)
  /-- `TX.FRAME.STD`, R145: a Standard frame request accepted. -/
  | txFrameStd (id : BitVec 32) (dlc : BitVec 4) (data : BitVec 64)
  /-- `TX.FRAME.EXT`, R145: an Extended frame request accepted. -/
  | txFrameExt (id : BitVec 32) (dlc : BitVec 4) (data : BitVec 64)
  /-- `TX.REJECT`, R146: a frame request of type `10` (Error, `reserved = false`) or `11` (`reserved = true`). -/
  | txReject (reserved : Bool)
  /-- `TX.XFER`, R147: one outbound byte transferred. -/
  | txXfer
  /-- `TX.WAIT`, R151: a packet in flight, the transport not ready. -/
  | txWait
  /-- `TX.IDLE`, R152: no packet in flight and no request. -/
  | txIdle
  /-- `HDR.CONFIG`, R86: byte 1 of a candidate is `0x55`; candidate length 20. -/
  | hdrConfig
  /-- `HDR.DATA`, R86: byte 1 has high nibble `0xC` and low nibble `l`; candidate length `l + 5`. -/
  | hdrData (l : BitVec 4)
  /-- `HDR.OTHER`, R86: byte 1 is neither; candidate length 2, dropped. -/
  | hdrOther (b : Byte)
  /-- `PKT.CFG`, R81: the 20-byte configuration command with its three codes and its checksum `c`. -/
  | pktCfg (s f m c : Byte)
  /-- `PKT.FRAME`, R82: the 13-byte outbound packet; `e` is descriptor bit 5, `i` and `j` the identifier bytes at
  offsets 2 and 3, `d` the payload with byte `k` at bits `8k+7..8k`. -/
  | pktFrame (e : Bool) (l : BitVec 4) (i j : Byte) (d : BitVec 64)
  /-- `PKT.FRAME.IN`, R83: the inbound frame of `l + 5` bytes; `d` its `l` payload bytes, `t` its trailer. -/
  | pktFrameIn (l : BitVec 4) (i j : Byte) (d : List Byte) (t : Byte)
  deriving DecidableEq, Repr

end Sys2Proof
end

