-- ==== Sys2Proof/Decode.lean ====
section
/-! DEFINITION. The decoder and the encoder of the table's formats: the receive selector RXSEL (11 bits), the transmit
selector TXSEL (7 bits) with its port operands, the header byte HDR, and the packets PKT_CFG, PKT_FRAME, PKT_FRAME_IN
(`spec/opcode_table.json`, `spec/30_encoding.md`). The step decodes the two selectors at every edge. -/

namespace Sys2Proof

/-! ### Bit fields and byte layouts -/

/-- `b[7:4]` (R9). -/
def hiNibble (b : Byte) : BitVec 4 := b.extractLsb' 4 4

/-- `b[3:0]` (R9). -/
def loNibble (b : Byte) : BitVec 4 := b.extractLsb' 0 4

/-- Byte `i` of a 64-bit port, bits `8i+7..8i` (R66 of `spec/20_memory.md`). -/
def dataByte (d : BitVec 64) (i : Nat) : Byte := d.extractLsb' (8 * i) 8

/-- Eight bytes as a 64-bit port, byte `i` at bits `8i+7..8i` (R66). -/
def packData (b0 b1 b2 b3 b4 b5 b6 b7 : Byte) : BitVec 64 :=
  b0.setWidth 64 ||| b1.setWidth 64 <<< 8 ||| b2.setWidth 64 <<< 16 ||| b3.setWidth 64 <<< 24 |||
    b4.setWidth 64 <<< 32 ||| b5.setWidth 64 <<< 40 ||| b6.setWidth 64 <<< 48 ||| b7.setWidth 64 <<< 56

/-- The descriptor byte bit by bit (R84): bits 7:6 are `11`, bit 5 is Extended, bit 4 is 0, bits 3:0 the length. -/
def descriptorBits (e : Bool) (l : BitVec 4) : Byte :=
  (0b11#2 ++ BitVec.ofBool e ++ 0#1 ++ l : BitVec 8)

/-- `Sum8(buf, lo, hi)` of R10: the sum of the bytes at `lo..hi`, both ends included, modulo 256. -/
def sum8 (cell : Nat → Byte) (lo hi : Nat) : Byte :=
  (List.range' lo (hi + 1 - lo)).foldl (fun acc k => acc + cell k) 0

/-- The 20 bytes of a configuration command (R81), checksum byte `c` as given. -/
def pktCfgBytes (s f m c : Byte) : List Byte :=
  [0xAA, 0x55, 0x12, s, f, 0, 0, 0, 0, 0, 0, 0, 0, m, 0x01, 0, 0, 0, 0, c]

/-- The 13 bytes of an outbound data frame with the descriptor byte `desc` (R82). -/
def outFrameBytes (desc i j : Byte) (d : BitVec 64) : List Byte :=
  [0xAA, desc, i, j, dataByte d 0, dataByte d 1, dataByte d 2, dataByte d 3, dataByte d 4, dataByte d 5, dataByte d 6,
    dataByte d 7, 0x55]

/-- The 13 bytes of an outbound data frame from the fields of its row (R82, R84). -/
def pktFrameBytes (e : Bool) (l : BitVec 4) (i j : Byte) (d : BitVec 64) : List Byte :=
  outFrameBytes (descriptorBits e l) i j d

/-- The `l + 5` bytes of an inbound data frame (R83). -/
def pktFrameInBytes (l : BitVec 4) (i j : Byte) (d : List Byte) (t : Byte) : List Byte :=
  0xAA :: descriptorBits false l :: i :: j :: (d ++ [t])

/-! ### Header classes -/

/-- The three classes of byte 1 (R86). -/
inductive HeaderClass where
  | config
  | data (l : BitVec 4)
  | other
  deriving DecidableEq, Repr

/-- Classification of byte 1, total and exclusive (R86). -/
def headerClass (b : Byte) : HeaderClass :=
  if b = tag then .config
  else if hiNibble b = 0xC then .data (loNibble b)
  else .other

/-- The candidate length each class gives (R85). -/
def HeaderClass.length : HeaderClass → Nat
  | .config => 20
  | .data l => l.toNat + 5
  | .other => 2

/-- The header row that byte 1 selects (R86). -/
def decodeHdr (b : Byte) : Instr :=
  match headerClass b with
  | .config => .hdrConfig
  | .data l => .hdrData l
  | .other => .hdrOther b

/-! ### Selectors -/

/-- What the candidate is after the append of this edge: the condition that tells the rows of selector `0 1 1` apart
(R80; R171 of `spec/44_demux.md`, steps 2 and 3). -/
inductive Completion where
  /-- `Complete` is false: `RX.ACCUM`. -/
  | incomplete
  /-- Configuration-shaped, checksum equal: `RX.CFG_OK`. -/
  | cfgOk
  /-- Configuration-shaped, checksum different: `RX.DROP_CKSUM`. -/
  | cfgBad
  /-- Data-shaped, six bytes or more: `RX.FRAME`. -/
  | frame
  /-- Data-shaped and no frame: `RX.DROP_SHORT`. -/
  | short
  /-- The fallback branch: `RX.DROP_HDR`. -/
  | header
  deriving DecidableEq, Repr

/-- The port operands of the transmit rows (R40, R144, R145). -/
structure TxOperands where
  cfgSpeed : Byte := 0
  cfgFtype : Byte := 0
  cfgMode : Byte := 0
  txfId : BitVec 32 := 0
  txfDlc : BitVec 4 := 0
  txfData : BitVec 64 := 0
  deriving DecidableEq, Repr

/-- The RXSEL row of an 11-bit selector `rst | rx_valid | sync | rx_byte` (R80, `spec/opcode_table.json`). -/
def decodeRxSel (sel : BitVec 11) (c : Completion) : Instr :=
  let b : Byte := sel.extractLsb' 0 8
  if sel.getLsbD 10 then .rst
  else if !sel.getLsbD 9 then .rxIdle
  else if !sel.getLsbD 8 then (if b = marker then .rxSync else .rxSkip b)
  else
    match c with
    | .incomplete => .rxAccum b
    | .cfgOk => .rxCfgOk b
    | .cfgBad => .rxDropCksum b
    | .frame => .rxFrame b
    | .short => .rxDropShort b
    | .header => .rxDropHdr b

/-- The TXSEL row of a 7-bit selector `rst | tx_busy | tx_ready | cfg_valid | txf_valid | txf_type` (R80). A transfer
excludes an acceptance (R143), and a configuration request is taken before a frame request (R142). -/
def decodeTxSel (sel : BitVec 7) (o : TxOperands) : Instr :=
  if sel.getLsbD 6 then .rst
  else if sel.getLsbD 5 then (if sel.getLsbD 4 then .txXfer else .txWait)
  else if sel.getLsbD 3 then .txCfg o.cfgSpeed o.cfgFtype o.cfgMode
  else if sel.getLsbD 2 then
    (if sel.getLsbD 1 then .txReject (sel.getLsbD 0)
    else if sel.getLsbD 0 then .txFrameExt o.txfId o.txfDlc o.txfData
    else .txFrameStd o.txfId o.txfDlc o.txfData)
  else .txIdle

/-! ### Packets -/

/-- Why bytes are no packet of the table. -/
inductive DecodeError where
  /-- The bytes do not have the length or the fixed bytes of a configuration command (R81). -/
  | notConfigCommand
  /-- The checksum byte is not the sum of bytes 2..18 (R111 of `spec/41_config_encoder.md`). -/
  | configChecksum
  /-- The bytes do not have the length or the fixed bytes of an outbound data frame (R82). -/
  | notOutboundFrame
  /-- Byte 0 is not the marker (R83). -/
  | noMarker
  /-- Byte 1 is not data-shaped (R83, R86). -/
  | notDataShaped
  /-- The bytes end before the declared length is reached (R83). -/
  | truncated
  /-- Bytes are left over after the trailer (R83). -/
  | trailingBytes
  /-- A word of a width that no row of the table has. -/
  | noSuchFormat
  deriving DecidableEq, Repr

/-- The answer of the decoder. -/
inductive Decoded (α : Type) where
  | ok (a : α)
  | rejected (e : DecodeError)
  deriving DecidableEq, Repr

/-- `PKT.CFG` from 20 bytes: the fixed bytes of R81 and the checksum of R111 must hold. -/
def decodePktCfg (bs : List Byte) : Decoded Instr :=
  let s := bs.getD 3 0
  let f := bs.getD 4 0
  let m := bs.getD 13 0
  let c := bs.getD 19 0
  if bs = pktCfgBytes s f m c then
    (if sum8 (fun k => bs.getD k 0) 2 18 = c then .ok (.pktCfg s f m c) else .rejected .configChecksum)
  else .rejected .notConfigCommand

/-- `PKT.FRAME` from 13 bytes: the fixed bits of R82 and R84 must hold. -/
def decodePktFrame (bs : List Byte) : Decoded Instr :=
  let e := (bs.getD 1 0).getLsbD 5
  let l := loNibble (bs.getD 1 0)
  let d := packData (bs.getD 4 0) (bs.getD 5 0) (bs.getD 6 0) (bs.getD 7 0) (bs.getD 8 0) (bs.getD 9 0) (bs.getD 10 0)
    (bs.getD 11 0)
  if bs = pktFrameBytes e l (bs.getD 2 0) (bs.getD 3 0) d then .ok (.pktFrame e l (bs.getD 2 0) (bs.getD 3 0) d)
  else .rejected .notOutboundFrame

/-- `PKT.FRAME.IN` from a stream, with the bytes after it: the length is read from byte 1 alone (R83, R85). -/
def decodePktFrameIn : List Byte → Decoded (Instr × List Byte)
  | a :: desc :: i :: j :: rest =>
    if a ≠ marker then .rejected .noMarker
    else if hiNibble desc ≠ 0xC then .rejected .notDataShaped
    else
      match rest.drop (loNibble desc).toNat with
      | t :: after => .ok (.pktFrameIn (loNibble desc) i j (rest.take (loNibble desc).toNat) t, after)
      | [] => .rejected .truncated
  | _ => .rejected .truncated

/-! ### The whole decoder and the encoder -/

/-- What the decoder reads: one value of one of the table's formats. -/
inductive Sample where
  /-- RXSEL: the selector and what the candidate is after the append. -/
  | rxSel (sel : BitVec 11) (c : Completion)
  /-- TXSEL: the selector and the port operands. -/
  | txSel (sel : BitVec 7) (o : TxOperands)
  /-- HDR: byte 1 of a candidate. -/
  | hdr (b : Byte)
  /-- PKT_CFG: a configuration command. -/
  | cfgBytes (bs : List Byte)
  /-- PKT_FRAME: an outbound packet. -/
  | outBytes (bs : List Byte)
  /-- PKT_FRAME_IN: an inbound data frame. -/
  | inBytes (bs : List Byte)
  deriving DecidableEq, Repr

/-- The decoder, total on every sample: the selectors and the header byte always select a row (R80, R86), a byte list
that is no packet is rejected by name. -/
def decode : Sample → Decoded Instr
  | .rxSel sel c => .ok (decodeRxSel sel c)
  | .txSel sel o => .ok (decodeTxSel sel o)
  | .hdr b => .ok (decodeHdr b)
  | .cfgBytes bs => decodePktCfg bs
  | .outBytes bs => decodePktFrame bs
  | .inBytes bs =>
    match decodePktFrameIn bs with
    | .ok (i, []) => .ok i
    | .ok (_, _ :: _) => .rejected .trailingBytes
    | .rejected e => .rejected e

/-- The encoder: each row's "encoding" of `spec/opcode_table.json` with its operands put in, 0 in every place it marks
`x` (any), and its condition and port operands beside it. -/
def encode : Instr → Sample
  | .rst => .rxSel 0b10000000000 .incomplete
  | .rxIdle => .rxSel 0b00000000000 .incomplete
  | .rxSkip b => .rxSel (0b010#3 ++ b) .incomplete
  | .rxSync => .rxSel 0b01010101010 .incomplete
  | .rxAccum b => .rxSel (0b011#3 ++ b) .incomplete
  | .rxCfgOk b => .rxSel (0b011#3 ++ b) .cfgOk
  | .rxDropCksum b => .rxSel (0b011#3 ++ b) .cfgBad
  | .rxFrame b => .rxSel (0b011#3 ++ b) .frame
  | .rxDropShort b => .rxSel (0b011#3 ++ b) .short
  | .rxDropHdr b => .rxSel (0b011#3 ++ b) .header
  | .txCfg sp ft md => .txSel 0b0001000 { cfgSpeed := sp, cfgFtype := ft, cfgMode := md }
  | .txFrameStd id dlc data => .txSel 0b0000100 { txfId := id, txfDlc := dlc, txfData := data }
  | .txFrameExt id dlc data => .txSel 0b0000101 { txfId := id, txfDlc := dlc, txfData := data }
  | .txReject r => .txSel (0b000011#6 ++ BitVec.ofBool r) {}
  | .txXfer => .txSel 0b0110000 {}
  | .txWait => .txSel 0b0100000 {}
  | .txIdle => .txSel 0b0000000 {}
  | .hdrConfig => .hdr 0b01010101
  | .hdrData l => .hdr (0b1100#4 ++ l)
  | .hdrOther b => .hdr b
  | .pktCfg s f m c => .cfgBytes (pktCfgBytes s f m c)
  | .pktFrame e l i j d => .outBytes (pktFrameBytes e l i j d)
  | .pktFrameIn l i j d t => .inBytes (pktFrameInBytes l i j d t)

/-! ### The table's match and mask -/

/-- "match" and "mask" of the RXSEL rows. -/
def rxPattern : Instr → Option (BitVec 11 × BitVec 11)
  | .rst => some (0x400, 0x400)
  | .rxIdle => some (0x000, 0x600)
  | .rxSkip _ => some (0x200, 0x700)
  | .rxSync => some (0x2AA, 0x7FF)
  | .rxAccum _ | .rxCfgOk _ | .rxDropCksum _ | .rxFrame _ | .rxDropShort _ | .rxDropHdr _ => some (0x300, 0x700)
  | .txCfg _ _ _ | .txFrameStd _ _ _ | .txFrameExt _ _ _ | .txReject _ | .txXfer | .txWait | .txIdle => none
  | .hdrConfig | .hdrData _ | .hdrOther _ | .pktCfg _ _ _ _ | .pktFrame _ _ _ _ _ | .pktFrameIn _ _ _ _ _ => none

/-- "match" and "mask" of the TXSEL rows; `RST` by the note of its row ("TXSEL 1xxxxxx"). -/
def txPattern : Instr → Option (BitVec 7 × BitVec 7)
  | .rst => some (0x40, 0x40)
  | .txCfg _ _ _ => some (0x08, 0x68)
  | .txFrameStd _ _ _ => some (0x04, 0x6F)
  | .txFrameExt _ _ _ => some (0x05, 0x6F)
  | .txReject _ => some (0x06, 0x6E)
  | .txXfer => some (0x30, 0x70)
  | .txWait => some (0x20, 0x70)
  | .txIdle => some (0x00, 0x6C)
  | .rxIdle | .rxSkip _ | .rxSync | .rxAccum _ | .rxCfgOk _ | .rxDropCksum _ | .rxFrame _ | .rxDropShort _ => none
  | .rxDropHdr _ | .hdrConfig | .hdrData _ | .hdrOther _ | .pktCfg _ _ _ _ | .pktFrame _ _ _ _ _ => none
  | .pktFrameIn _ _ _ _ _ => none

/-- "match" and "mask" of the HDR rows. -/
def hdrPattern : Instr → Option (Byte × Byte)
  | .hdrConfig => some (0x55, 0xFF)
  | .hdrData _ => some (0xC0, 0xF0)
  | .hdrOther _ => some (0x00, 0x00)
  | .rst | .rxIdle | .rxSkip _ | .rxSync | .rxAccum _ | .rxCfgOk _ | .rxDropCksum _ | .rxFrame _ | .rxDropShort _ => none
  | .rxDropHdr _ | .txCfg _ _ _ | .txFrameStd _ _ _ | .txFrameExt _ _ _ | .txReject _ | .txXfer | .txWait => none
  | .txIdle | .pktCfg _ _ _ _ | .pktFrame _ _ _ _ _ | .pktFrameIn _ _ _ _ _ => none

/-- The fixed bits of a packet row, byte by byte, as match and mask (for `PKT.FRAME.IN`, of its first two bytes). -/
def packetPattern : Instr → Option (List (Byte × Byte))
  | .pktCfg _ _ _ _ =>
    some ([(0xAA, 0xFF), (0x55, 0xFF), (0x12, 0xFF), (0, 0), (0, 0)] ++ List.replicate 8 (0, 0xFF)
      ++ [(0, 0), (0x01, 0xFF)] ++ List.replicate 4 (0, 0xFF) ++ [(0, 0)])
  | .pktFrame _ _ _ _ _ => some ([(0xAA, 0xFF), (0xC0, 0xD0)] ++ List.replicate 10 (0, 0) ++ [(0x55, 0xFF)])
  | .pktFrameIn _ _ _ _ _ => some [(0xAA, 0xFF), (0xC0, 0xF0)]
  | .rst | .rxIdle | .rxSkip _ | .rxSync | .rxAccum _ | .rxCfgOk _ | .rxDropCksum _ | .rxFrame _ | .rxDropShort _ => none
  | .rxDropHdr _ | .txCfg _ _ _ | .txFrameStd _ _ _ | .txFrameExt _ _ _ | .txReject _ | .txXfer | .txWait => none
  | .txIdle | .hdrConfig | .hdrData _ | .hdrOther _ => none

/-- The bits of a selector fit a row's match and mask. -/
def fitsWord {n : Nat} (w : BitVec n) : Option (BitVec n × BitVec n) → Bool
  | some (pat, mask) => w &&& mask == pat
  | none => false

/-- The first bytes of a packet fit a row's match and mask, byte by byte. -/
def fitsBytes : List (Byte × Byte) → List Byte → Bool
  | [], _ => true
  | _ :: _, [] => false
  | (pat, mask) :: ps, b :: bs => b &&& mask == pat && fitsBytes ps bs

/-- A sample fits a row of the table. -/
def fitsRow (i : Instr) : Sample → Bool
  | .rxSel sel _ => fitsWord sel (rxPattern i)
  | .txSel sel _ => fitsWord sel (txPattern i)
  | .hdr b => fitsWord b (hdrPattern i)
  | .cfgBytes bs | .outBytes bs | .inBytes bs =>
    match packetPattern i with
    | some ps => fitsBytes ps bs
    | none => false

/-- The operand and "condition" columns of the RXSEL rows, for the byte `b` of the selector. -/
def rxCondition (b : Byte) (c : Completion) : Instr → Bool
  | .rxSkip b' => b' == b && b != marker
  | .rxAccum b' => b' == b && c == .incomplete
  | .rxCfgOk b' => b' == b && c == .cfgOk
  | .rxDropCksum b' => b' == b && c == .cfgBad
  | .rxFrame b' => b' == b && c == .frame
  | .rxDropShort b' => b' == b && c == .short
  | .rxDropHdr b' => b' == b && c == .header
  | .rst | .rxIdle | .rxSync => true
  | .txCfg _ _ _ | .txFrameStd _ _ _ | .txFrameExt _ _ _ | .txReject _ | .txXfer | .txWait | .txIdle => false
  | .hdrConfig | .hdrData _ | .hdrOther _ | .pktCfg _ _ _ _ | .pktFrame _ _ _ _ _ | .pktFrameIn _ _ _ _ _ => false

/-- The operand column of the TXSEL rows. -/
def txCondition (sel : BitVec 7) (o : TxOperands) : Instr → Bool
  | .txCfg sp ft md => sp == o.cfgSpeed && ft == o.cfgFtype && md == o.cfgMode
  | .txFrameStd id dlc data => id == o.txfId && dlc == o.txfDlc && data == o.txfData
  | .txFrameExt id dlc data => id == o.txfId && dlc == o.txfDlc && data == o.txfData
  | .txReject r => r == sel.getLsbD 0
  | .rst | .txXfer | .txWait | .txIdle => true
  | .rxIdle | .rxSkip _ | .rxSync | .rxAccum _ | .rxCfgOk _ | .rxDropCksum _ | .rxFrame _ | .rxDropShort _ => false
  | .rxDropHdr _ | .hdrConfig | .hdrData _ | .hdrOther _ | .pktCfg _ _ _ _ | .pktFrame _ _ _ _ _ => false
  | .pktFrameIn _ _ _ _ _ => false

/-- A row applies to a receive selector: its bits fit and its condition holds (R80). -/
def rxApplies (sel : BitVec 11) (c : Completion) (i : Instr) : Bool :=
  fitsWord sel (rxPattern i) && rxCondition (sel.extractLsb' 0 8) c i

/-- A row applies to a transmit selector (R80). -/
def txApplies (sel : BitVec 7) (o : TxOperands) (i : Instr) : Bool :=
  fitsWord sel (txPattern i) && txCondition sel o i

/-! ### A word of the table -/

/-- The `n` low bytes of `w`, the least significant first. -/
def bytesOfNat : Nat → Nat → List Byte
  | 0, _ => []
  | n + 1, w => BitVec.ofNat 8 w :: bytesOfNat n (w / 256)

/-- DESIGN CHOICE (log 9). The row of a byte-wide word. TXSEL (7 bits) and HDR (8 bits) both fill one byte: a byte with
bits 7 and 6 clear is read as a transmit selector, any other as a header byte. -/
def decodeByteWord (w : Nat) : Instr :=
  let b := BitVec.ofNat 8 w
  if b.getLsbD 7 || b.getLsbD 6 then decodeHdr b else decodeTxSel (b.extractLsb' 0 7) {}

/-- DESIGN CHOICE (log 9). The row of a 13-byte word: `PKT.FRAME` if its fixed bits hold, else `PKT.FRAME.IN` with zeros
above the word. -/
def decodeFrameWord (w : Nat) : Option Instr :=
  match decodePktFrame (bytesOfNat 13 w) with
  | .ok i => some i
  | .rejected _ =>
    match decodePktFrameIn (bytesOfNat 20 w) with
    | .ok (i, _) => some i
    | .rejected _ => none

/-- DESIGN CHOICE (log 9). The instruction read from a table word of `nbits` bits. A word alone does not say what the
candidate is after the append: the five completing receive rows have the word of `RX.ACCUM`, which is what it reads as. -/
def decodeTableWord (nbits w : Nat) : Option Instr :=
  if nbits ≤ 8 then (if w < 256 then some (decodeByteWord w) else none)
  else if nbits ≤ 16 then (if w < 2048 then some (decodeRxSel (BitVec.ofNat 11 w) .incomplete) else none)
  else if nbits = 104 then decodeFrameWord w
  else if nbits = 160 then
    match decodePktCfg (bytesOfNat 20 w) with
    | .ok i => some i
    | .rejected _ => none
  else none

end Sys2Proof
end

