-- ==== Sys2Proof/Config.lean ====
section
/-! DEFINITION. What the implementation fixes (R6 of `spec/00_scope.md`) and the free values: the input ports where
nothing has been scripted (log 1), the settle interval (log 14), a packet byte outside `tx_pkt` (log 6). The parameter
`ID_RECON` of R6 is an argument of the receive operations; its default is `idRecon` in `Machine/Operands.lean` (log 7). -/

namespace Sys2Proof

/-- The input ports of R40 (`spec/10_state.md`), less `clk`: what the host drives just before one rising edge. -/
structure Inputs where
  rst : Bool := false
  rxValid : Bool := false
  rxByte : Byte := 0
  cfgValid : Bool := false
  cfgSpeed : Byte := 0
  cfgFtype : Byte := 0
  cfgMode : Byte := 0
  txfValid : Bool := false
  txfId : BitVec 32 := 0
  txfType : BitVec 2 := 0
  txfDlc : BitVec 4 := 0
  txfData : BitVec 64 := 0
  txReady : Bool := false
  deriving DecidableEq, Repr, Inhabited

/-- `BUF_DEPTH`: the number of cells of the reassembly buffer (R6, R24, D13). -/
def Config.bufDepth : Nat := 100

/-- DESIGN CHOICE (log 1). The input ports at edge number `n` where the stimulus queue is empty: a FREE VALUE, since the
host may drive anything at any edge (R234 of `spec/60_exceptions.md`). Safe: nothing constrains it. -/
opaque Config.freeInputs : Nat → Inputs

/-- `SETTLE_TIME` counted in edges: OPEN (R6, R261, D22), a host parameter that no rule of the block reads. Used only by
the host's open sequence (log 14). Safe: nothing constrains it. -/
opaque Config.settleEdges : Nat

/-- DESIGN CHOICE (log 6). What `tx_byte` shows for an index above 19, where `tx_pkt` has no byte: a FREE VALUE. R149 of
`spec/43_tx_serializer.md` excludes such an index. Safe: nothing constrains it. -/
opaque Config.byteBeyondPacket : BitVec 5 → Byte

end Sys2Proof
end

