-- ==== Sys2Proof/Machine/State.lean ====
section
/-! DEFINITION. The state of the block: every storage element of `spec/10_state.md` (R22 to R28), and two fields of the
model's own that stand for the host (the scripted and the counted edges). The state after reset (R43, R251). -/

namespace Sys2Proof.Machine

/-- The event codes of `rx_evt` (R96 of `spec/30_encoding.md`): eight names for the eight values of its three bits. -/
inductive Event where
  | none
  | skip
  | sync
  | accum
  | frame
  | cfgOk
  | dropCksum
  | dropShape
  deriving DecidableEq, Repr

/-- Why the machine stops. The block itself never stops (R220 of `spec/60_exceptions.md`). -/
inductive Fault where
  /-- Raised by `storeAtCursor` (`Machine/Ops.lean`): an append at a cell index of `BUF_DEPTH` or more, which the spec says
  does not exist (R24, R60). Safe; no state that meets R25 raises it (R190). -/
  | bufferIndex
  deriving DecidableEq, Repr

/-- Why an operation has no meaning. -/
inductive Refusal where
  /-- Raised by an arm of `exec` whose instruction has no meaning yet. Safe. No arm raises it. -/
  | notModelled (mnemonic : String)
  deriving DecidableEq, Repr

/-- One statement of the stimulus notation (R97 of `spec/30_encoding.md`): what the host drives on the input ports. -/
inductive Stimulus where
  /-- The model's own: one edge with every input port given. -/
  | edge (i : Inputs)
  /-- `rx b0 b1 ... bn`: one edge per byte. -/
  | rx (bytes : List Byte)
  /-- `idle n`: `n` edges with `rx_valid = 0`. -/
  | idle (n : Nat)
  /-- `cfg S F M`: edges with the request until it is accepted. -/
  | cfg (speed ftype mode : Byte)
  /-- `txf ID T DLC d0 .. d7`: edges with the request until it is accepted. -/
  | txf (id : BitVec 32) (type : BitVec 2) (dlc : BitVec 4) (data : BitVec 64)
  /-- `wait_tx`: edges until `tx_busy = 0`. -/
  | waitTx
  /-- `stall n`: `n` edges with `tx_ready = 0`. -/
  | stall (n : Nat)
  /-- `rst`: one edge with `rst = 1`. -/
  | rst
  /-- The model's own: the host has stopped presenting bytes and requests and its transport takes none, for good (`close()`,
  R233, D27). -/
  | closed
  deriving DecidableEq, Repr

/-- The reassembly buffer as a list of (cell index, byte) pairs in one canonical form (`Memory.wf`, `Machine/Ops.lean`). -/
abbrev Memory := List Host.Cell

/-- The registers of the block; a one-bit register is a `Bool`. -/
structure State where
  /-- `sync`: false is Searching, true is Accumulating (R22). -/
  sync : Bool
  /-- `cur`: the write cursor (R23). -/
  cur : BitVec 7
  /-- `buf`: the reassembly buffer (R24). -/
  buf : Memory
  /-- `rxf_valid_q` (R27). -/
  rxfValid : Bool
  /-- `rxf_id_q` (R27). -/
  rxfId : BitVec 32
  /-- `rxf_type_q`, code of R42 (R27). -/
  rxfType : BitVec 2
  /-- `rxf_dlc_q` (R27). -/
  rxfDlc : BitVec 4
  /-- `rxf_data_q`, byte `i` at bits `8i+7..8i` (R27, R66). -/
  rxfData : BitVec 64
  /-- `rx_evt_q` (R27, R96). -/
  rxEvt : Event
  /-- `tx_busy` (R28). -/
  txBusy : Bool
  /-- `tx_idx` (R28). -/
  txIdx : BitVec 5
  /-- `tx_len` (R28). -/
  txLen : BitVec 5
  /-- `tx_pkt[0..19]` (R28). -/
  txPkt : Vector Byte 20
  /-- `tx_reject_q` (R28). -/
  txReject : Bool
  /-- DESIGN CHOICE (log 2), the model's own: the statements the host has still to drive, the next one first. -/
  stim : List Stimulus
  /-- DESIGN CHOICE (log 1), the model's own: the number of edges made; the free inputs are applied to it. -/
  edges : Nat
  deriving DecidableEq, Repr

/-- The block right after reset (R43, R251). `buf` and `tx_pkt` are unspecified there: zero is the model's choice
(logs 3 and 4, DESIGN CHOICE, unsafe). No statement is scripted (log 2). -/
def State.reset : State where
  sync := false
  cur := 0
  buf := []
  rxfValid := false
  rxfId := 0
  rxfType := 0
  rxfDlc := 0
  rxfData := 0
  rxEvt := .none
  txBusy := false
  txIdx := 0
  txLen := 0
  txPkt := Vector.replicate 20 0
  txReject := false
  stim := []
  edges := 0

end Sys2Proof.Machine
end

