-- ==== Sys2Proof/Machine/Operands.lean ====
section
/-! DEFINITION. Operand assembly on both sides (R87, R88 of `spec/30_encoding.md`): the identifier and the payload of a
received frame, the descriptor and the two encoders (`spec/41_config_encoder.md`, `spec/42_frame_encoder.md`). -/

namespace Sys2Proof.Machine

/-- A CAN frame as the ports carry it (R41 of `spec/10_state.md`); payload byte `i` at bits `8i+7..8i`. -/
structure CanFrame where
  id : BitVec 32
  type : BitVec 2
  dlc : BitVec 4
  data : BitVec 64
  deriving DecidableEq, Repr

/-- The 3-bit code of an event (R96). -/
def Event.code : Event → BitVec 3
  | .none => 0
  | .skip => 1
  | .sync => 2
  | .accum => 3
  | .frame => 4
  | .cfgOk => 5
  | .dropCksum => 6
  | .dropShape => 7

/-- The type of the parameter `ID_RECON` (R6, I1): bytes 2 and 3 of a received data frame to its identifier. -/
abbrev IdRecon := Byte → Byte → BitVec 16

/-- The default of `ID_RECON` (R6, R176, D5): `b3 ++ b2`, little-endian. The machine of `step` runs at it; `stepWith` takes any
other (log 7). -/
def idRecon (b2 b3 : Byte) : BitVec 16 := b3 ++ b2

/-- The frame type codes of R42. -/
def typeStandard : BitVec 2 := 0b00

/-- Extended, R42. -/
def typeExtended : BitVec 2 := 0b01

/-- Error, R42. -/
def typeError : BitVec 2 := 0b10

/-- Payload byte `i` of a received frame with `k` payload bytes (R177): `buf[4 + i]` below `k`, else zero. -/
def payloadByte (cell : Nat → Byte) (k i : Nat) : Byte :=
  if i < k then cell (4 + i) else 0

/-- `BuildFrame(buf, n)` (R177 of `spec/44_demux.md`), with `ID_RECON` as an argument. -/
def buildFrame (recon : IdRecon) (cell : Nat → Byte) (n : Nat) : CanFrame :=
  let k := min (n - 5) 8
  { id := (recon (cell 2) (cell 3)).setWidth 32
    type := typeStandard
    dlc := loNibble (cell 1)
    data := packData (payloadByte cell k 0) (payloadByte cell k 1) (payloadByte cell k 2) (payloadByte cell k 3)
      (payloadByte cell k 4) (payloadByte cell k 5) (payloadByte cell k 6) (payloadByte cell k 7) }

/-- `Descriptor(type, dlc)` in the order of R121 of `spec/42_frame_encoder.md`: base, then the type bit, then the length. -/
def descriptor (type : BitVec 2) (dlc : BitVec 4) : Byte :=
  let base : Byte := 0xC0
  let typed := if type = typeExtended then base ||| 0x20 else base &&& ~~~0x20
  typed ||| dlc.setWidth 8

/-- `EncodeConfig(speed, ftype, mode)` (R110, R111 of `spec/41_config_encoder.md`): bytes 0..18, then their checksum. -/
def encodeConfig (speed ftype mode : Byte) : List Byte :=
  pktCfgBytes speed ftype mode (sum8 (fun k => (pktCfgBytes speed ftype mode 0).getD k 0) 2 18)

/-- `EncodeFrame(id, type, dlc, data)` (R120, R122, R123 of `spec/42_frame_encoder.md`). -/
def encodeFrame (id : BitVec 32) (type : BitVec 2) (dlc : BitVec 4) (data : BitVec 64) : List Byte :=
  outFrameBytes (descriptor type dlc) (id.extractLsb' 0 8) (id.extractLsb' 8 8) data

end Sys2Proof.Machine
end

