-- ==== Sys2Proof/Machine/Flags.lean ====
section
/-! DEFINITION. The tests of the demultiplexer. The block has no condition codes (R29 of `spec/10_state.md`); what it
tests is the completeness of a candidate, its checksum and its shape (R171, R173, R175 of `spec/44_demux.md`). A buffer is
given here as the function that reads its cells. -/

namespace Sys2Proof.Machine

/-- `Complete(buf, cur)` (R173), the tests in the source's order. -/
def complete (cell : Nat → Byte) (n : Nat) : Bool :=
  if n < 2 then false
  else
    match headerClass (cell 1) with
    | .config => decide (20 ≤ n)
    | .data l => decide (l.toNat + 5 ≤ n)
    | .other => true

/-- The checksum test of a configuration-shaped candidate (R175). -/
def checksumOk (cell : Nat → Byte) : Bool := sum8 cell 2 18 == cell 19

/-- What a candidate of `n` bytes is (R171, steps 2 and 3): the condition column of the receive rows. A completed
candidate that is neither configuration-shaped of 20 bytes nor data-shaped of 6 bytes or more is dropped; it is
`RX.DROP_SHORT` if its byte 1 is data-shaped and `RX.DROP_HDR` if not (R187, R188). -/
def completionOf (cell : Nat → Byte) (n : Nat) : Completion :=
  if !complete cell n then .incomplete
  else if n = 20 ∧ cell 0 = marker ∧ cell 1 = tag then (if checksumOk cell then .cfgOk else .cfgBad)
  else if 6 ≤ n ∧ cell 0 = marker ∧ hiNibble (cell 1) = 0xC then .frame
  else if hiNibble (cell 1) = 0xC then .short
  else .header

end Sys2Proof.Machine
end

