-- ==== Sys2Proof/Machine/Ops.lean ====
section
/-! DEFINITION. The named operations over the buffer and the registers, shared by every meaning. The block takes no
exception and returns from none (R220, R226 of `spec/60_exceptions.md`), so there is no such operation. -/

namespace Sys2Proof.Machine

/-! ### The reassembly buffer -/

/-- DESIGN CHOICE (log 3), unsafe. What a cell that nothing has written holds; the spec leaves it unspecified and
unobservable (R24, D14). -/
def unlistedByte : Byte := 0

/-- `buf[a]` (R11, R24). -/
def Memory.read : Memory → Nat → Byte
  | [], _ => unlistedByte
  | (b, w) :: m, a => if b = a then w else Memory.read m a

/-- The buffer without cell `a`'s entry. -/
def Memory.erase : Memory → Nat → Memory
  | [], _ => []
  | (b, w) :: m, a => if b = a then Memory.erase m a else (b, w) :: Memory.erase m a

/-- An entry put before the first one of a greater index. -/
def Memory.insert : Memory → Nat → Byte → Memory
  | [], a, v => [(a, v)]
  | (b, w) :: m, a, v => if a < b then (a, v) :: (b, w) :: m else (b, w) :: Memory.insert m a v

/-- `buf[a] <- v` (R11), in the canonical form: no entry for a cell that holds what an unlisted one does. -/
def Memory.write (m : Memory) (a : Nat) (v : Byte) : Memory :=
  if v = unlistedByte then Memory.erase m a else Memory.insert (Memory.erase m a) a v

/-- The indices of a buffer's entries are all above `a`. -/
def Memory.above (a : Nat) (m : Memory) : Bool := m.all (fun c => decide (a < c.1))

/-- The canonical form: indices strictly rising and below `BUF_DEPTH`, no entry that an unlisted cell would equal. -/
def Memory.wf : Memory → Bool
  | [] => true
  | (a, v) :: m => Memory.above a m && decide (a < Config.bufDepth) && v != unlistedByte && Memory.wf m

/-! ### Outcomes -/

/-- The first step's outcome, and the second step's from what it leaves. -/
def andThen {α β : Type} (o : Host.Outcome α Fault Refusal) (f : α → Host.Outcome β Fault Refusal) :
    Host.Outcome β Fault Refusal :=
  match o with
  | .next s => f s
  | .fault r => .fault r
  | .refused r => .refused r

/-! ### The receive registers -/

/-- The marker stored at cell 0 and Accumulating entered (R171 step 1, R182). -/
def State.startCandidate (s : State) : State :=
  { s with buf := Memory.write s.buf 0 marker, cur := 1, sync := true }

/-- `buf[cur] <- b; cur <- cur + 1` (R171 step 1, R183). -/
def State.storeByte (s : State) (b : Byte) : State :=
  { s with buf := Memory.write s.buf s.cur.toNat b, cur := s.cur + 1 }

/-- The append, which faults where the cell does not exist (log 5). -/
def storeAtCursor (b : Byte) (s : State) : Host.Outcome State Fault Refusal :=
  if s.cur.toNat < Config.bufDepth then .next (s.storeByte b) else .fault .bufferIndex

/-- Back to Searching; the buffer is not cleared (R171 step 3, R178). -/
def State.toSearching (s : State) : State := { s with sync := false, cur := 0 }

/-- An edge that emits no frame: its event, and `rxf_valid` down; the frame registers keep the last frame (R179). -/
def State.report (s : State) (ev : Event) : State := { s with rxEvt := ev, rxfValid := false }

/-- An edge that emits the frame `f` (R179): all four frame registers together (R70). -/
def State.emit (s : State) (f : CanFrame) : State :=
  { s with
    rxEvt := .frame
    rxfValid := true
    rxfId := f.id
    rxfType := f.type
    rxfDlc := f.dlc
    rxfData := f.data }

/-- An append, then the end of the candidate with event `ev` and no frame (R184, R185, R187, R188). -/
def dropAfter (ev : Event) (b : Byte) (s : State) : Host.Outcome State Fault Refusal :=
  andThen (storeAtCursor b s) fun t => .next (t.toSearching.report ev)

/-- An append to a candidate that stays incomplete. R171 step 2 reports `SYNC` where the cursor is now 1, which for an
append happens only from `cur = 0` in Accumulating, a state R25 excludes; else `ACCUM` (R183). -/
def appendAfter (b : Byte) (s : State) : Host.Outcome State Fault Refusal :=
  andThen (storeAtCursor b s) fun t => .next (t.report (if t.cur = 1 then .sync else .accum))

/-- An append, then the frame built from the candidate (R186). -/
def emitAfter (recon : IdRecon) (b : Byte) (s : State) : Host.Outcome State Fault Refusal :=
  andThen (storeAtCursor b s) fun t => .next (t.toSearching.emit (buildFrame recon (Memory.read t.buf) t.cur.toNat))

/-! ### The transmit registers -/

/-- The packet register with `bytes` in its first places and the rest as it was (R144, R145, R150). -/
def storePacket (bytes : List Byte) (old : Vector Byte 20) : Vector Byte 20 :=
  Vector.ofFn fun k => bytes.getD k.val old[k]

/-- A packet accepted: `tx_pkt`, `tx_len`, `tx_idx`, `tx_busy` (R144, R145). -/
def State.loadPacket (s : State) (bytes : List Byte) : State :=
  { s with
    txPkt := storePacket bytes s.txPkt
    txLen := BitVec.ofNat 5 bytes.length
    txIdx := 0
    txBusy := true }

/-- The index after a transfer (R147): the end of the packet at `tx_idx = tx_len - 1`, compared as naturals, else one
more. DESIGN CHOICE (log 6): an index of 31, which R149 excludes, wraps to 0 in its five bits. -/
def State.advanceIndex (s : State) : State :=
  { s with
    txBusy := if s.txIdx.toNat + 1 = s.txLen.toNat then false else s.txBusy
    txIdx := if s.txIdx.toNat + 1 = s.txLen.toNat then 0 else s.txIdx + 1 }

/-- `tx_reject_q`, written at every edge (R153). -/
def State.setReject (s : State) (r : Bool) : State := { s with txReject := r }

/-! ### Reset -/

/-- `Reset(S)` (R251 of `spec/70_reset_and_hazards.md`): the values of R43; `buf` and `tx_pkt` are not cleared. -/
def State.resetBlock (s : State) : State :=
  { s with
    sync := false
    cur := 0
    rxfValid := false
    rxfId := 0
    rxfType := 0
    rxfDlc := 0
    rxfData := 0
    rxEvt := .none
    txBusy := false
    txIdx := 0
    txLen := 0
    txReject := false }

/-! ### The host's side -/

/-- The script after an edge, and the edge counted (logs 1 and 2). -/
def State.script (s : State) (rest : List Stimulus) : State := { s with stim := rest, edges := s.edges + 1 }

end Sys2Proof.Machine
end

