-- ==== Sys2Proof/Machine/Hdr.lean ====
section
/-! DEFINITION. The header-class family (R85, R86 of `spec/30_encoding.md`): the receive edge that consumes byte 1 of a
candidate, named by the class of that byte (log 10). `HDR.CONFIG` and `HDR.DATA` leave the candidate incomplete, so their
edge is an `RX.ACCUM` (R183); `HDR.OTHER` completes it at once, so its edge is an `RX.DROP_HDR` (R188). -/

namespace Sys2Proof.Machine

/-- `HDR.CONFIG`: byte 1 is `0x55`; the candidate is 20 bytes long. -/
def execHdrConfig (s : State) : Host.Outcome State Fault Refusal := appendAfter tag s

/-- `HDR.DATA`: byte 1 has high nibble `0xC`; the candidate is `l + 5` bytes long, so five at least. -/
def execHdrData (l : BitVec 4) (s : State) : Host.Outcome State Fault Refusal := appendAfter (descriptorBits false l) s

/-- `HDR.OTHER`: byte 1 is neither; the candidate ends with it and is dropped. -/
def execHdrOther (b : Byte) (s : State) : Host.Outcome State Fault Refusal := dropAfter .dropShape b s

end Sys2Proof.Machine
end

