-- ==== Sys2Proof/Machine/Demux.lean ====
section
/-! DEFINITION. The demultiplexer's step whole, written from the pseudocode of R171 and R179 (`spec/44_demux.md`), and the
consumption of a run of bytes, with `ID_RECON` as an argument (R6). The step of the machine does not go through these: it decodes a row and runs its meaning.
That the two agree is stated among the obligations. -/

namespace Sys2Proof.Machine

/-- What `DemuxStep` returns (R13 of `spec/00_scope.md`): the next state, an event, a frame or none. -/
structure DemuxResult where
  state : State
  event : Event
  frame : Option CanFrame
  deriving DecidableEq, Repr

/-- Steps 2 and 3 of R171, on the state that step 1 left. -/
def demuxFinish (recon : IdRecon) (t : State) : DemuxResult :=
  let cell := Memory.read t.buf
  let n := t.cur.toNat
  if !complete cell n then ⟨t, if t.cur = 1 then .sync else .accum, none⟩
  else if n = 20 ∧ cell 0 = marker ∧ cell 1 = tag then
    (if sum8 cell 2 18 = cell 19 then ⟨t.toSearching, .cfgOk, none⟩ else ⟨t.toSearching, .dropCksum, none⟩)
  else if n ≥ 6 ∧ cell 0 = marker ∧ hiNibble (cell 1) = 0xC then ⟨t.toSearching, .frame, some (buildFrame recon cell n)⟩
  else ⟨t.toSearching, .dropShape, none⟩

/-- Step 1 of R171 where the byte is stored. -/
def demuxStore (b : Byte) (s : State) : Host.Outcome State Fault Refusal :=
  if s.sync then storeAtCursor b s else .next s.startCandidate

/-- The output registers after `DemuxStep` (R179). -/
def DemuxResult.present (r : DemuxResult) : State :=
  match r.frame with
  | none => r.state.report r.event
  | some f => { r.state.emit f with rxEvt := r.event }

/-- One consumed byte: `DemuxStep` (R171) and the output registers (R179). -/
def consumeByte (recon : IdRecon) (b : Byte) (s : State) : Host.Outcome State Fault Refusal :=
  if s.sync = false ∧ b ≠ marker then .next (DemuxResult.mk s .skip none).present
  else andThen (demuxStore b s) fun t => .next (demuxFinish recon t).present

/-- `RxEdge` (R179). -/
def rxEdge (recon : IdRecon) (i : Inputs) (s : State) : Host.Outcome State Fault Refusal :=
  if i.rxValid then consumeByte recon i.rxByte s else .next (s.report .none)

/-- A run of bytes, one per edge, on the receive registers alone (R72 of `spec/20_memory.md`). -/
def consume (recon : IdRecon) : List Byte → State → Host.Outcome State Fault Refusal
  | [], s => .next s
  | b :: bs, s => andThen (consumeByte recon b s) (consume recon bs)

/-- The events of a run of bytes, one per byte, up to a fault. -/
def consumeEvents (recon : IdRecon) : List Byte → State → List Event
  | [], _ => []
  | b :: bs, s =>
    match consumeByte recon b s with
    | .next t => t.rxEvt :: consumeEvents recon bs t
    | .fault _ => []
    | .refused _ => []

end Sys2Proof.Machine
end

