-- ==== Sys2Proof/Machine/Pkt.lean ====
section
/-! DEFINITION. The packet family (R81 to R83 of `spec/30_encoding.md`): a packet as a whole (log 11). The two outbound
packets are handed to the serializer (R144, R145); the inbound packet is consumed by the demultiplexer, one byte per edge
(R72, R193). -/

namespace Sys2Proof.Machine

/-- `PKT.CFG`: the command of R81 loaded into the serializer. -/
def execPktCfg (sp ft md c : Byte) (s : State) : Host.Outcome State Fault Refusal :=
  .next ((s.loadPacket (pktCfgBytes sp ft md c)).setReject false)

/-- `PKT.FRAME`: the packet of R82 loaded into the serializer. -/
def execPktFrame (e : Bool) (l : BitVec 4) (i j : Byte) (d : BitVec 64) (s : State) :
    Host.Outcome State Fault Refusal :=
  .next ((s.loadPacket (pktFrameBytes e l i j d)).setReject false)

/-- `PKT.FRAME.IN`: the bytes of R83 consumed in order, the identifier by the default of `ID_RECON` (R6). -/
def execPktFrameIn (l : BitVec 4) (i j : Byte) (d : List Byte) (t : Byte) (s : State) :
    Host.Outcome State Fault Refusal :=
  consume idRecon (pktFrameInBytes l i j d t) s

end Sys2Proof.Machine
end

