-- ==== Sys2Proof/Machine/Reset.lean ====
section
/-! DEFINITION. The reset family: `RST` (R251 of `spec/70_reset_and_hazards.md`). -/

namespace Sys2Proof.Machine

/-- `RST` (R251): every register at its reset value, the buffer and the packet register kept. -/
def execRst (s : State) : Host.Outcome State Fault Refusal := .next s.resetBlock

end Sys2Proof.Machine
end

