-- ==== Sys2Proof/Machine/Rx.lean ====
section
/-! DEFINITION. The receive family: one meaning per operation of R180 to R188 (`spec/44_demux.md`), each with its effect
on the output registers (R179). A meaning is the effect of its row where the row is selected; which row an edge selects
is decided by the decoder (`Machine/Select.lean`, log 8). -/

namespace Sys2Proof.Machine

/-- `RX.IDLE` (R180): the demultiplexer is unchanged, the event is `NONE`, `rxf_valid` down. -/
def execRxIdle (s : State) : Host.Outcome State Fault Refusal := .next (s.report .none)

/-- `RX.SKIP` (R181): the byte is discarded. -/
def execRxSkip (_b : Byte) (s : State) : Host.Outcome State Fault Refusal := .next (s.report .skip)

/-- `RX.SYNC` (R182): the marker is stored and Accumulating entered. -/
def execRxSync (s : State) : Host.Outcome State Fault Refusal := .next (s.startCandidate.report .sync)

/-- `RX.ACCUM` (R183): the byte is appended, whatever its value (R172). -/
def execRxAccum (b : Byte) (s : State) : Host.Outcome State Fault Refusal := appendAfter b s

/-- `RX.CFG_OK` (R184): the candidate is consumed, no frame (D9). -/
def execRxCfgOk (b : Byte) (s : State) : Host.Outcome State Fault Refusal := dropAfter .cfgOk b s

/-- `RX.DROP_CKSUM` (R185): the candidate is discarded. -/
def execRxDropCksum (b : Byte) (s : State) : Host.Outcome State Fault Refusal := dropAfter .dropCksum b s

/-- `RX.FRAME` (R186): the frame of R177 is emitted, its identifier by the default of `ID_RECON` (R6). -/
def execRxFrame (b : Byte) (s : State) : Host.Outcome State Fault Refusal := emitAfter idRecon b s

/-- `RX.DROP_SHORT` (R187): a data-shaped candidate of declared length 0 is dropped. -/
def execRxDropShort (b : Byte) (s : State) : Host.Outcome State Fault Refusal := dropAfter .dropShape b s

/-- `RX.DROP_HDR` (R188): a candidate with an unrecognised byte 1 is dropped. -/
def execRxDropHdr (b : Byte) (s : State) : Host.Outcome State Fault Refusal := dropAfter .dropShape b s

end Sys2Proof.Machine
end

