-- ==== Sys2Proof/Machine/Tx.lean ====
section
/-! DEFINITION. The transmit family: one meaning per operation of R144 to R152 (`spec/43_tx_serializer.md`), each with its
write of `tx_reject_q` (R153). Which row an edge selects is decided by the decoder (`Machine/Select.lean`, log 8). -/

namespace Sys2Proof.Machine

/-- `TX.CFG` (R144): the 20 bytes of the command are loaded; the codes are not checked (R112). -/
def execTxCfg (speed ftype mode : Byte) (s : State) : Host.Outcome State Fault Refusal :=
  .next ((s.loadPacket (encodeConfig speed ftype mode)).setReject false)

/-- `TX.FRAME.STD` (R145): the 13 bytes of a Standard frame are loaded. -/
def execTxFrameStd (id : BitVec 32) (dlc : BitVec 4) (data : BitVec 64) (s : State) :
    Host.Outcome State Fault Refusal :=
  .next ((s.loadPacket (encodeFrame id typeStandard dlc data)).setReject false)

/-- `TX.FRAME.EXT` (R145): the 13 bytes of an Extended frame are loaded. -/
def execTxFrameExt (id : BitVec 32) (dlc : BitVec 4) (data : BitVec 64) (s : State) :
    Host.Outcome State Fault Refusal :=
  .next ((s.loadPacket (encodeFrame id typeExtended dlc data)).setReject false)

/-- `TX.REJECT` (R146): the handshake completes, nothing is sent, `tx_reject` is up for one cycle. -/
def execTxReject (_reserved : Bool) (s : State) : Host.Outcome State Fault Refusal := .next (s.setReject true)

/-- `TX.XFER` (R147): the byte on `tx_byte` is taken. -/
def execTxXfer (s : State) : Host.Outcome State Fault Refusal := .next (s.advanceIndex.setReject false)

/-- `TX.WAIT` (R151): the same byte stays. -/
def execTxWait (s : State) : Host.Outcome State Fault Refusal := .next (s.setReject false)

/-- `TX.IDLE` (R152): nothing to do. -/
def execTxIdle (s : State) : Host.Outcome State Fault Refusal := .next (s.setReject false)

end Sys2Proof.Machine
end

