-- ==== Sys2Proof/Machine/Dispatch.lean ====
section
/-! DEFINITION. The meaning of every row of `spec/opcode_table.json`. -/

namespace Sys2Proof.Machine

def exec (i : Instr) (s : State) : Host.Outcome State Fault Refusal :=
  match i with
  | .rst => Sys2Proof.Machine.execRst s
  | .rxIdle => Sys2Proof.Machine.execRxIdle s
  | .rxSkip b => Sys2Proof.Machine.execRxSkip b s
  | .rxSync => Sys2Proof.Machine.execRxSync s
  | .rxAccum b => Sys2Proof.Machine.execRxAccum b s
  | .rxCfgOk b => Sys2Proof.Machine.execRxCfgOk b s
  | .rxDropCksum b => Sys2Proof.Machine.execRxDropCksum b s
  | .rxFrame b => Sys2Proof.Machine.execRxFrame b s
  | .rxDropShort b => Sys2Proof.Machine.execRxDropShort b s
  | .rxDropHdr b => Sys2Proof.Machine.execRxDropHdr b s
  | .txCfg speed ftype mode => Sys2Proof.Machine.execTxCfg speed ftype mode s
  | .txFrameStd id dlc data => Sys2Proof.Machine.execTxFrameStd id dlc data s
  | .txFrameExt id dlc data => Sys2Proof.Machine.execTxFrameExt id dlc data s
  | .txReject r => Sys2Proof.Machine.execTxReject r s
  | .txXfer => Sys2Proof.Machine.execTxXfer s
  | .txWait => Sys2Proof.Machine.execTxWait s
  | .txIdle => Sys2Proof.Machine.execTxIdle s
  | .hdrConfig => Sys2Proof.Machine.execHdrConfig s
  | .hdrData l => Sys2Proof.Machine.execHdrData l s
  | .hdrOther b => Sys2Proof.Machine.execHdrOther b s
  | .pktCfg sp ft md c => Sys2Proof.Machine.execPktCfg sp ft md c s
  | .pktFrame e l a b d => Sys2Proof.Machine.execPktFrame e l a b d s
  | .pktFrameIn l a b d t => Sys2Proof.Machine.execPktFrameIn l a b d t s

end Sys2Proof.Machine
end

