-- ==== Sys2Proof/Machine/Select.lean ====
section
/-! DEFINITION. Which rows apply at an edge (R80 of `spec/30_encoding.md`): the two selectors are assembled from the
registers and the ports and decoded. -/

namespace Sys2Proof.Machine

/-- The 11-bit receive selector `rst | rx_valid | sync | rx_byte` (`spec/opcode_table.json`, RXSEL). -/
def rxSelector (i : Inputs) (s : State) : BitVec 11 :=
  BitVec.ofBool i.rst ++ BitVec.ofBool i.rxValid ++ BitVec.ofBool s.sync ++ i.rxByte

/-- What the candidate is after the append of `b` (the condition column of RXSEL; R171 steps 1 to 3). -/
def completionAfter (b : Byte) (s : State) : Completion :=
  completionOf (Memory.read (Memory.write s.buf s.cur.toNat b)) (s.cur.toNat + 1)

/-- The receive row of an edge (R80). -/
def rxRow (i : Inputs) (s : State) : Instr := decodeRxSel (rxSelector i s) (completionAfter i.rxByte s)

/-- The 7-bit transmit selector `rst | tx_busy | tx_ready | cfg_valid | txf_valid | txf_type` (TXSEL). -/
def txSelector (i : Inputs) (s : State) : BitVec 7 :=
  BitVec.ofBool i.rst ++ BitVec.ofBool s.txBusy ++ BitVec.ofBool i.txReady ++ BitVec.ofBool i.cfgValid
    ++ BitVec.ofBool i.txfValid ++ i.txfType

/-- The port operands of the transmit rows. -/
def txOperands (i : Inputs) : TxOperands where
  cfgSpeed := i.cfgSpeed
  cfgFtype := i.cfgFtype
  cfgMode := i.cfgMode
  txfId := i.txfId
  txfDlc := i.txfDlc
  txfData := i.txfData

/-- The transmit row of an edge (R80). -/
def txRow (i : Inputs) (s : State) : Instr := decodeTxSel (txSelector i s) (txOperands i)

end Sys2Proof.Machine
end

