-- ==== Sys2Proof/Machine/Edge.lean ====
section
/-! DEFINITION. One rising edge of `clk` (R250 of `spec/70_reset_and_hazards.md`, R80 of `spec/30_encoding.md`). -/

namespace Sys2Proof.Machine

/-- `Edge(S, in)` (R250): reset excludes everything else; otherwise one receive row and one transmit row apply together,
both selected by the state before the edge. They write disjoint registers, so their order does not matter (R73). -/
def edge (i : Inputs) (s : State) : Host.Outcome State Fault Refusal :=
  if i.rst then exec .rst s else andThen (exec (rxRow i s) s) (exec (txRow i s))

/-- A run of edges with given inputs, up to the first that stops. -/
def runEdges : List Inputs → State → Host.Outcome State Fault Refusal
  | [], s => .next s
  | i :: is, s => andThen (edge i s) (runEdges is)

end Sys2Proof.Machine
end

