-- ==== Sys2Proof/Machine/Fetch.lean ====
section
/-! DEFINITION. Where an edge takes its inputs from: the stimulus notation (R97 of `spec/30_encoding.md`), and free
values where no statement is left (log 1). The block fetches nothing itself (R21, R75); this is the host's side (log 2). -/

namespace Sys2Proof.Machine

/-- The inputs of an edge that no statement names: 0, and `tx_ready = 1` (R97). -/
def quietInputs : Inputs := { txReady := true }

/-- The inputs of an `rx` edge (R97). -/
def rxInputs (b : Byte) : Inputs := { quietInputs with rxValid := true, rxByte := b }

/-- The inputs of a `cfg` edge (R97). -/
def cfgInputs (speed ftype mode : Byte) : Inputs :=
  { quietInputs with cfgValid := true, cfgSpeed := speed, cfgFtype := ftype, cfgMode := mode }

/-- The inputs of a `txf` edge (R97). -/
def txfInputs (id : BitVec 32) (type : BitVec 2) (dlc : BitVec 4) (data : BitVec 64) : Inputs :=
  { quietInputs with txfValid := true, txfId := id, txfType := type, txfDlc := dlc, txfData := data }

/-- The inputs of a `stall` edge: `tx_ready = 0` (R97). -/
def stallInputs : Inputs := {}

/-- The inputs of an edge after `close()`: a closed transport presents no byte and takes none, and the host presents no
request (R233, D27). -/
def closedInputs : Inputs := {}

/-- The inputs of an `rst` edge (R97). -/
def rstInputs : Inputs := { quietInputs with rst := true }

/-- The inputs of the next edge and the statements left after it, for a serializer that is `busy` or not (R97). A
statement that makes no more edges gives way to the next one (`closed` never does); a request stays until an edge with `tx_busy = 0`, where its
ready signal is 1 (R141). -/
def fetch (busy : Bool) : List Stimulus → Option (Inputs × List Stimulus)
  | [] => none
  | .edge i :: rest => some (i, rest)
  | .rx [] :: rest => fetch busy rest
  | .rx (b :: bs) :: rest => some (rxInputs b, .rx bs :: rest)
  | .idle 0 :: rest => fetch busy rest
  | .idle (n + 1) :: rest => some (quietInputs, .idle n :: rest)
  | .cfg sp ft md :: rest => some (cfgInputs sp ft md, if busy then .cfg sp ft md :: rest else rest)
  | .txf id ty dlc d :: rest => some (txfInputs id ty dlc d, if busy then .txf id ty dlc d :: rest else rest)
  | .waitTx :: rest => if busy then some (quietInputs, .waitTx :: rest) else fetch busy rest
  | .stall 0 :: rest => fetch busy rest
  | .stall (n + 1) :: rest => some (stallInputs, .stall n :: rest)
  | .rst :: rest => some (rstInputs, rest)
  | .closed :: rest => some (closedInputs, .closed :: rest)

/-- The input ports just before the next edge. -/
def State.nextInputs (s : State) : Inputs :=
  match fetch s.txBusy s.stim with
  | some (i, _) => i
  | none => Config.freeInputs s.edges

/-- The state with the script moved past the next edge. -/
def State.fetched (s : State) : State :=
  match fetch s.txBusy s.stim with
  | some (_, rest) => s.script rest
  | none => s.script []

/-! ### A word of the table placed for the next edge (log 9) -/

/-- The bytes of a candidate in cells `a`, `a + 1`, ... -/
def Memory.writeAll (m : Memory) (a : Nat) : List Byte → Memory
  | [] => m
  | b :: bs => Memory.writeAll (Memory.write m a b) (a + 1) bs

/-- Accumulating with the candidate `bs` held. -/
def State.holdCandidate (s : State) (bs : List Byte) : State :=
  { s with sync := true, cur := BitVec.ofNat 7 bs.length, buf := Memory.writeAll s.buf 0 bs }

/-- No packet in flight. -/
def State.serializerIdle (s : State) : State := { s with txBusy := false, txIdx := 0 }

/-- A 13-byte packet in flight, its first byte next. -/
def State.serializerBusy (s : State) : State := { s with txBusy := true, txIdx := 0, txLen := 13 }

/-- One more edge at the head of the script. -/
def State.withEdge (s : State) (i : Inputs) : State := { s with stim := .edge i :: s.stim }

/-- A receive selector placed: its `sync` bit is the state's, its other bits are port values. A selector with `sync = 1`
needs a candidate that the byte does not complete: `AA 55`. -/
def placeRxWord (s : State) (w : BitVec 11) : State :=
  let b : Byte := w.extractLsb' 0 8
  if w.getLsbD 10 then s.withEdge { rst := true, rxValid := w.getLsbD 9, rxByte := b }
  else if !w.getLsbD 9 then s.withEdge { rxByte := b }
  else if w.getLsbD 8 then (s.holdCandidate [marker, tag]).withEdge { rxValid := true, rxByte := b }
  else s.toSearching.withEdge { rxValid := true, rxByte := b }

/-- A transmit selector placed: its `tx_busy` bit is the state's, its other bits are port values. -/
def placeTxWord (s : State) (w : BitVec 7) : State :=
  (if w.getLsbD 5 then s.serializerBusy else s.serializerIdle).withEdge
    { rst := w.getLsbD 6
      txReady := w.getLsbD 4
      cfgValid := w.getLsbD 3
      txfValid := w.getLsbD 2
      txfType := w.extractLsb' 0 2 }

/-- A byte-wide word placed: a header byte as byte 1 of a candidate, or a transmit selector. -/
def placeByteWord (s : State) (w : Nat) : State :=
  let b := BitVec.ofNat 8 w
  if b.getLsbD 7 || b.getLsbD 6 then (s.holdCandidate [marker]).withEdge { rxValid := true, rxByte := b }
  else placeTxWord s (b.extractLsb' 0 7)

/-- A configuration command placed: the request that builds it. -/
def placeCfgPacket (s : State) (bs : List Byte) : State :=
  s.serializerIdle.withEdge
    { cfgValid := true, cfgSpeed := bs.getD 3 0, cfgFtype := bs.getD 4 0, cfgMode := bs.getD 13 0 }

/-- An outbound frame packet placed: the request that builds it. -/
def placeOutPacket (s : State) (bs : List Byte) : State :=
  s.serializerIdle.withEdge
    { txfValid := true
      txfId := (bs.getD 3 0 ++ bs.getD 2 0 : BitVec 16).setWidth 32
      txfType := if (bs.getD 1 0).getLsbD 5 then typeExtended else typeStandard
      txfDlc := loNibble (bs.getD 1 0)
      txfData := packData (bs.getD 4 0) (bs.getD 5 0) (bs.getD 6 0) (bs.getD 7 0) (bs.getD 8 0) (bs.getD 9 0)
        (bs.getD 10 0) (bs.getD 11 0) }

/-- An inbound frame placed: all its bytes but the trailer held, the trailer on the port. -/
def placeInPacket (s : State) (bs : List Byte) : State :=
  let n := (loNibble (bs.getD 1 0)).toNat + 4
  (s.holdCandidate (bs.take n)).withEdge { rxValid := true, rxByte := bs.getD n 0 }

/-- A table word placed for the next edge, in the format `decodeTableWord` reads it in. -/
def placeWord (s : State) (nbits w : Nat) : State :=
  if nbits ≤ 8 then placeByteWord s w
  else if nbits ≤ 16 then placeRxWord s (BitVec.ofNat 11 w)
  else if nbits = 104 then
    match decodePktFrame (bytesOfNat 13 w) with
    | .ok _ => placeOutPacket s (bytesOfNat 13 w)
    | .rejected _ => placeInPacket s (bytesOfNat 20 w)
  else if nbits = 160 then placeCfgPacket s (bytesOfNat 20 w)
  else s

end Sys2Proof.Machine
end

