-- ==== Sys2Proof/Machine/Step.lean ====
section
/-! DEFINITION. One step of the machine is one edge (R250), with the inputs of the script or free ones (logs 1 and 2). -/

namespace Sys2Proof.Machine

/-- One step: the inputs of the next edge, the script moved past it, the edge. -/
def step (s : State) : Host.Outcome State Fault Refusal := edge s.nextInputs s.fetched

/-- The state whose very next step runs the table word `w` (log 9). -/
def State.withFetchWord (s : State) (nbits w : Nat) : State := placeWord s nbits w

end Sys2Proof.Machine
end

