-- ==== Sys2Proof/Machine/Ports.lean ====
section
/-! DEFINITION. The output ports (R40 of `spec/10_state.md`): functions of the registers and, for the two ready signals,
of the inputs of the same cycle (R141, R148 of `spec/43_tx_serializer.md`). -/

namespace Sys2Proof.Machine

/-- The output ports of R40. -/
structure Outputs where
  rxfValid : Bool
  rxfId : BitVec 32
  rxfType : BitVec 2
  rxfDlc : BitVec 4
  rxfData : BitVec 64
  rxEvt : BitVec 3
  rxSync : Bool
  rxCur : BitVec 7
  cfgReady : Bool
  txfReady : Bool
  txValid : Bool
  txByte : Byte
  txReject : Bool
  deriving DecidableEq, Repr

/-- `cfg_ready = ~rst & ~tx_busy` (R141). -/
def cfgReady (i : Inputs) (s : State) : Bool := !i.rst && !s.txBusy

/-- `txf_ready = ~rst & ~tx_busy & ~cfg_valid` (R141, R142). -/
def txfReady (i : Inputs) (s : State) : Bool := !i.rst && !s.txBusy && !i.cfgValid

/-- `tx_byte = tx_busy ? tx_pkt[tx_idx] : 0x00` (R148); for an index with no byte, which R149 excludes, a free value
(log 6). -/
def txByte (s : State) : Byte :=
  if s.txBusy then (s.txPkt[s.txIdx.toNat]?).getD (Config.byteBeyondPacket s.txIdx) else 0x00

/-- A configuration request is accepted at this edge (R140). -/
def cfgAccepted (i : Inputs) (s : State) : Bool := !i.rst && i.cfgValid && cfgReady i s

/-- A frame request is accepted at this edge, sent or rejected (R140, R146). -/
def txfAccepted (i : Inputs) (s : State) : Bool := !i.rst && i.txfValid && txfReady i s

/-- A byte is transferred at this edge (R140). -/
def transferred (i : Inputs) (s : State) : Bool := !i.rst && s.txBusy && i.txReady

/-- Every output port in the cycle before an edge with inputs `i` (R40). -/
def outputs (i : Inputs) (s : State) : Outputs where
  rxfValid := s.rxfValid
  rxfId := s.rxfId
  rxfType := s.rxfType
  rxfDlc := s.rxfDlc
  rxfData := s.rxfData
  rxEvt := s.rxEvt.code
  rxSync := s.sync
  rxCur := s.cur
  cfgReady := cfgReady i s
  txfReady := txfReady i s
  txValid := s.txBusy
  txByte := txByte s
  txReject := s.txReject

end Sys2Proof.Machine
end

