-- ==== Sys2Proof/Machine/Driver.lean ====
section
/-! DEFINITION. The host's driver operations (R233 of `spec/60_exceptions.md`, R196 of `spec/44_demux.md`, R253 and R260 of
`spec/70_reset_and_hazards.md`) as what the host does on the ports: `open`, `send` and `close` as statements of the
script, `receive` as a run of edges with a result. The software around them is outside the block (R5 of
`spec/00_scope.md`); log 14. -/

namespace Sys2Proof.Machine

/-! ### open, send, close -/

/-- The codes a bit rate, frame type and mode are mapped to (R30 of `spec/10_state.md`); the mapping is the host's (I14). -/
structure AdapterCodes where
  speed : Byte
  ftype : Byte
  mode : Byte
  deriving DecidableEq, Repr

/-- What the host does with the adapter's echo (R260). -/
inductive Echo where
  /-- Every byte is discarded without being presented. -/
  | discarded
  /-- Every byte is presented. -/
  | presented (bytes : List Byte)
  /-- These bytes are presented and the rest discarded, so that `rst` must follow. -/
  | partly (bytes : List Byte)
  deriving DecidableEq, Repr

/-- The statements that drain the echo (R253 step 5, R260). -/
def Echo.statements : Echo → List Stimulus
  | .discarded => []
  | .presented bytes => [.rx bytes]
  | .partly bytes => [.rx bytes, .rst]

/-- The bytes of the echo that reach the block. -/
def Echo.reaching : Echo → List Byte
  | .discarded => []
  | .presented bytes => bytes
  | .partly bytes => bytes

/-- Steps 2 to 6 of R253 with a settle interval of `settle` edges. -/
def openScript (settle : Nat) (codes : AdapterCodes) (echo : Echo) : List Stimulus :=
  [.rst, .cfg codes.speed codes.ftype codes.mode, .waitTx] ++ echo.statements ++ [.idle settle]

/-- `open`, steps 2 to 6 of R253, by a host that discards the echo without presenting it (R260). -/
def openStimulus (speed ftype mode : Byte) : List Stimulus :=
  openScript Config.settleEdges ⟨speed, ftype, mode⟩ .discarded

/-- The same by a host that presents the echo to the block (R260). -/
def openStimulusWithEcho (speed ftype mode : Byte) (echo : List Byte) : List Stimulus :=
  openScript Config.settleEdges ⟨speed, ftype, mode⟩ (.presented echo)

/-- How `open` ends for its caller (R222, R233). -/
inductive OpenResult where
  /-- The rate is not supported: no port activity. -/
  | configurationError
  /-- The host drives these statements. -/
  | drives (script : List Stimulus)
  deriving DecidableEq, Repr

/-- `open(speed)` whole (R253): the rate is mapped to codes first, by the host's own mapping, and an unsupported one is
refused before any I/O. -/
def openCall (mapping : Nat → Option AdapterCodes) (rate : Nat) (echo : Echo) : OpenResult :=
  match mapping rate with
  | none => .configurationError
  | some codes => .drives (openScript Config.settleEdges codes echo)

/-- `send(frame)`: the request held until accepted, then the packet let out. -/
def sendStimulus (f : CanFrame) : List Stimulus := [.txf f.id f.type f.dlc f.data, .waitTx]

/-- `close()`: from here on no byte and no request is presented and no outbound byte is taken (D27); the block keeps its
state, a packet in flight too, until the next `rst`, which a new script brings. -/
def closeStimulus : List Stimulus := [.closed]

/-! ### receive -/

/-- One byte the transport has, presented for one edge; no edge where it has none. -/
def receiveStimulus : Option Byte → List Stimulus
  | some b => [.rx [b]]
  | none => []

/-- The frame on the ports in the cycle after an edge (R196, R221): `rxf_*` if `rxf_valid = 1`, else none. -/
def received (s : State) : Option CanFrame :=
  if s.rxfValid then some { id := s.rxfId, type := s.rxfType, dlc := s.rxfDlc, data := s.rxfData } else none

/-- What the transport does at an edge of a receive call. -/
inductive Arrival where
  /-- It has this byte. -/
  | byte (b : Byte)
  /-- It has none. -/
  | quiet
  /-- It fails. -/
  | fails
  deriving DecidableEq, Repr

/-- How a receive call ends for its caller (R222, R233). -/
inductive ReceiveResult where
  | frame (f : CanFrame)
  /-- A non-blocking call: none is available. -/
  | noFrame
  /-- The transport failed; nothing more is presented. -/
  | transportFailure
  /-- A blocking call that is still suspended when the arrivals given to it end. -/
  | suspended
  deriving DecidableEq, Repr

/-- The inputs of an edge of a receive call: the byte that arrives, if any; the transmit inputs as given. -/
def Arrival.inputs (other : Inputs) : Arrival → Inputs
  | .byte b => { other with rst := false, rxValid := true, rxByte := b }
  | .quiet => { other with rst := false, rxValid := false }
  | .fails => { other with rst := false, rxValid := false }

/-- `receive(false)` (R233): a byte the transport has is presented for one edge, and the result is what that edge emitted;
where it has none, the result is none and no edge is made, whatever the frame registers hold. -/
def receiveNow (other : Inputs) (available : Option Byte) (s : State) :
    Host.Outcome (State × ReceiveResult) Fault Refusal :=
  match available with
  | none => .next (s, .noFrame)
  | some b =>
    andThen (edge (Arrival.inputs other (.byte b)) s) fun t =>
      match received t with
      | some f => .next (t, .frame f)
      | none => .next (t, .noFrame)

/-- `receive(true)` (R196, R233): bytes are presented as they arrive until an edge emits a frame or the transport fails;
with the arrivals that are left. -/
def receiveBlocking : List (Inputs × Arrival) → State →
    Host.Outcome (State × ReceiveResult × List (Inputs × Arrival)) Fault Refusal
  | [], s => .next (s, .suspended, [])
  | (_, .fails) :: rest, s => .next (s, .transportFailure, rest)
  | (other, .quiet) :: rest, s => andThen (edge (Arrival.inputs other .quiet) s) (receiveBlocking rest)
  | (other, .byte b) :: rest, s =>
    andThen (edge (Arrival.inputs other (.byte b)) s) fun t =>
      match received t with
      | some f => .next (t, .frame f, rest)
      | none => receiveBlocking rest t

end Sys2Proof.Machine
end

