-- ==== Sys2Proof/Machine/Duties.lean ====
section
/-! DEFINITION. The host's duties as a condition on a run of inputs, the rows of the table of R234 (`spec/60_exceptions.md`;
R252, R253, R260, R261, R263 of `spec/70_reset_and_hazards.md`), and what passes the ports in such a run. A run is one
session. The readings that the rules leave are log 15. -/

namespace Sys2Proof

open Machine

/-- The host's duty on a frame request: never type `10` or `11`, `txf_dlc` at most 8 (R234). -/
abbrev Inputs.keepsFrameDuty (i : Inputs) : Prop :=
  i.txfValid = true → i.txfType ≠ typeError ∧ i.txfType ≠ 0b11 ∧ i.txfDlc.toNat ≤ 8

/-- The two edges carry the same configuration codes. -/
abbrev Inputs.SameCodes (i j : Inputs) : Prop :=
  j.cfgSpeed = i.cfgSpeed ∧ j.cfgFtype = i.cfgFtype ∧ j.cfgMode = i.cfgMode

/-- The two edges carry the same frame. -/
abbrev Inputs.SameFrame (i j : Inputs) : Prop :=
  j.txfId = i.txfId ∧ j.txfType = i.txfType ∧ j.txfDlc = i.txfDlc ∧ j.txfData = i.txfData

end Sys2Proof

namespace Sys2Proof.Machine

/-! ### What passes the ports in a run -/

/-- What `f` sees in the cycles of a run, each with the inputs of the edge that ends it. -/
def alongEdges {α : Type} (f : Inputs → State → List α) : List Inputs → State → List α
  | [], _ => []
  | i :: is, s =>
    f i s ++
      match edge i s with
      | .next t => alongEdges f is t
      | .fault _ => []
      | .refused _ => []

/-- The bytes the transport takes: `tx_byte` at each edge with `tx_valid = tx_ready = 1` (R140, R234). -/
def sentBytes : List Inputs → State → List Byte :=
  alongEdges fun i s => if transferred i s then [txByte s] else []

/-- The packet of the request an edge accepts; a rejected one has none (R144 to R146). -/
def acceptedPacket (i : Inputs) (s : State) : List Byte :=
  if cfgAccepted i s then encodeConfig i.cfgSpeed i.cfgFtype i.cfgMode
  else if txfAccepted i s ∧ (i.txfType = typeStandard ∨ i.txfType = typeExtended) then
    encodeFrame i.txfId i.txfType i.txfDlc i.txfData
  else []

/-- The packets of the requests a run accepts, one after the other. -/
def acceptedPackets : List Inputs → State → List Byte := alongEdges acceptedPacket

/-- The configuration requests a run accepts. -/
def acceptedCommands : List Inputs → State → List AdapterCodes :=
  alongEdges fun i s => if cfgAccepted i s then [⟨i.cfgSpeed, i.cfgFtype, i.cfgMode⟩] else []

/-- The frame requests a run accepts, rejected ones too. -/
def acceptedFrames : List Inputs → State → List CanFrame :=
  alongEdges fun i s => if txfAccepted i s then [⟨i.txfId, i.txfType, i.txfDlc, i.txfData⟩] else []

/-- The frames on the ports, taken by a host that looks in every cycle (R234, R264). -/
def takenFrames : List Inputs → State → List CanFrame := alongEdges fun _ s => (received s).toList

/-- The bytes a run presents, in order. -/
def presentedBytes (is : List Inputs) : List Byte := (is.filter (·.rxValid)).map (·.rxByte)

/-- The bytes of the packet in flight that are still to be sent. -/
def State.pending (s : State) : List Byte :=
  if s.txBusy then (s.txPkt.toList.take s.txLen.toNat).drop s.txIdx.toNat else []

/-- The inputs of the next `n` steps. -/
def drivenInputs : Nat → State → List Inputs
  | 0, _ => []
  | n + 1, s =>
    s.nextInputs ::
      match step s with
      | .next t => drivenInputs n t
      | .fault _ => []
      | .refused _ => []

/-! ### The duties -/

/-- Where a session stands for the host's requests. -/
inductive Phase where
  /-- Before the first edge with `rst = 1` (R252). -/
  | powerUp
  /-- No configuration command to wait for. -/
  | live
  /-- A configuration command is being sent. -/
  | command
  /-- The command is out, and this many edges of the settle interval are left (R261). -/
  | settling (edges : Nat)
  deriving DecidableEq, Repr

/-- What the host has beside the ports: which codes its check passes (R253 step 1, I13) and the settle interval. -/
structure HostParams where
  checked : AdapterCodes → Bool
  settle : Nat

/-- What a byte of the link is to the host. The configuration commands of a session are numbered from 0. -/
inductive Origin where
  /-- Traffic. -/
  | traffic
  /-- A byte of the echo of this command, all of which is presented. -/
  | echo (command : Nat)
  /-- A byte of the echo of this command, some of which is discarded without being presented. -/
  | echoPart (command : Nat)
  deriving DecidableEq, Repr

/-- The command whose echo a byte belongs to. -/
def Origin.command? : Origin → Option Nat
  | .traffic => none
  | .echo n => some n
  | .echoPart n => some n

/-- A byte that the link delivers and the host does not discard. -/
structure LinkByte where
  byte : Byte
  origin : Origin := .traffic
  deriving DecidableEq, Repr

/-- The bytes of the first command's echo that reach the block. -/
def Echo.linkBytes : Echo → List LinkByte
  | .discarded => []
  | .presented bytes => bytes.map fun b => ⟨b, .echo 0⟩
  | .partly bytes => bytes.map fun b => ⟨b, .echoPart 0⟩

/-- What the host remembers of its session. -/
structure HostMemory where
  /-- Where the session stands. -/
  phase : Phase := .powerUp
  /-- The bytes the link has delivered, or will, and the host has still to present; an echo byte that the host discards is
  not among them (R260). -/
  link : List LinkByte := []
  /-- How many configuration commands have been accepted. -/
  commands : Nat := 0
  /-- A byte of a part-presented echo has been consumed since the last edge with `rst = 1`. -/
  partEcho : Bool := false
  /-- The inputs of the last edge. -/
  last : Inputs := {}
  /-- The last edge accepted a configuration request. -/
  cfgTaken : Bool := false
  /-- The last edge accepted a frame request. -/
  txfTaken : Bool := false
  deriving DecidableEq, Repr

/-- Reset is asserted before anything else is presented (R234, R252, R253 step 2). DESIGN CHOICE (log 15): at the very first
edge with `rst = 1` a byte and either request may stand beside `rst`, since R234 lets each be presented at any time. -/
abbrev resetDuty (m : HostMemory) (i : Inputs) : Prop :=
  m.phase = .powerUp → i.rst = true ∨ i.rxValid = false ∧ i.cfgValid = false ∧ i.txfValid = false

/-- Bytes are presented in the order the link delivered them, each once (R234). DESIGN CHOICE (log 15): after a part-presented
echo traffic may be presented, and be absorbed, before the `rst` of R260, which names no edge by which `rst` must follow. -/
abbrev byteDuty (m : HostMemory) (i : Inputs) : Prop :=
  i.rxValid = true → m.link.head?.map LinkByte.byte = some i.rxByte

/-- The echo of every command so far is drained: no byte of it is left to present, and where a part of it was presented and
the rest discarded, `rst` has been asserted since (R234, R260). DESIGN CHOICE (log 15): that `rst` is asked for before the next
frame request, not before the next byte of traffic. -/
def HostMemory.echoDrained (m : HostMemory) : Bool :=
  m.link.all (fun b => b.origin.command?.all fun n => decide (m.commands ≤ n)) && !m.partEcho

/-- A configuration request carries checked codes, is held unchanged until it is accepted, and is then dropped or followed
by a new one (R234, R263). -/
abbrev cfgDuty (h : HostParams) (m : HostMemory) (i : Inputs) : Prop :=
  (i.cfgValid = true → h.checked ⟨i.cfgSpeed, i.cfgFtype, i.cfgMode⟩ = true) ∧
  (m.last.cfgValid = true ∧ m.cfgTaken = false → i.cfgValid = true ∧ m.last.SameCodes i) ∧
  (m.last.cfgValid = true ∧ m.cfgTaken = true → i.cfgValid = false ∨ ¬ m.last.SameCodes i)

/-- A frame request is of a kind the link carries, is held unchanged until it is accepted, is then dropped or followed by a
new one, and comes only after the settle interval of a configuration command and with its echo drained (R234, R260, R261,
R263). DESIGN CHOICE (log 15): before any command it may come at any edge that `resetDuty` allows, the very first reset edge
among them; and from the edge after a command's acceptance it is off the ports, so one that waits while a configuration
request is accepted breaks a duty. -/
abbrev txfDuty (m : HostMemory) (i : Inputs) : Prop :=
  i.keepsFrameDuty ∧
  (m.last.txfValid = true ∧ m.txfTaken = false → i.txfValid = true ∧ m.last.SameFrame i) ∧
  (m.last.txfValid = true ∧ m.txfTaken = true → i.txfValid = false ∨ ¬ m.last.SameFrame i) ∧
  (i.txfValid = true → (m.phase = .powerUp ∨ m.phase = .live ∨ m.phase = .settling 0) ∧ m.echoDrained = true)

/-- Every duty of the host at one edge. -/
def edgeDuty (h : HostParams) (m : HostMemory) (i : Inputs) : Bool :=
  decide (resetDuty m i) && decide (byteDuty m i) && decide (cfgDuty h m i) && decide (txfDuty m i)

/-- The edge transfers the last byte of the packet in flight (R147). -/
def lastTransfer (i : Inputs) (s : State) : Bool := transferred i s && s.txIdx.toNat + 1 == s.txLen.toNat

/-- Where the session stands after an edge. A command cut short by reset is waited for like a whole one (log 15). -/
def Phase.after (h : HostParams) (i : Inputs) (s : State) : Phase → Phase
  | .powerUp => if i.rst then .live else .powerUp
  | .live => if cfgAccepted i s then .command else .live
  | .command => if i.rst || lastTransfer i s then .settling h.settle else .command
  | .settling n => if cfgAccepted i s then .command else .settling (n - 1)

/-- What the host remembers after an edge. -/
def HostMemory.after (h : HostParams) (i : Inputs) (s : State) (m : HostMemory) : HostMemory where
  phase := m.phase.after h i s
  link := if i.rxValid then m.link.tail else m.link
  commands := if cfgAccepted i s then m.commands + 1 else m.commands
  partEcho :=
    !i.rst && (m.partEcho || i.rxValid && m.link.head?.any fun b => b.origin matches .echoPart _)
  last := i
  cfgTaken := cfgAccepted i s
  txfTaken := txfAccepted i s

/-- The host keeps every duty at every edge of a run from the state `s`. -/
def keepsDuties (h : HostParams) : HostMemory → List Inputs → State → Bool
  | _, [], _ => true
  | m, i :: is, s =>
    edgeDuty h m i &&
      match edge i s with
      | .next t => keepsDuties h (m.after h i s) is t
      | .fault _ => true
      | .refused _ => true

end Sys2Proof.Machine
end

