-- ==== Sys2Proof/Machine/Param.lean ====
section
/-! DEFINITION. The machine with the parameter `ID_RECON` as an argument (R6 of `spec/00_scope.md`, R176 of
`spec/44_demux.md`, I1 of `spec/93_implementation_defined.md`). At the default it is the machine of `exec`, `edge` and `step`
(log 7). Only the two rows that build a frame use the parameter. -/

namespace Sys2Proof.Machine

/-- The meaning of a row in a block whose `ID_RECON` is `recon`. -/
def execWith (recon : IdRecon) (i : Instr) (s : State) : Host.Outcome State Fault Refusal :=
  match i with
  | .rxFrame b => emitAfter recon b s
  | .pktFrameIn l a b d t => consume recon (pktFrameInBytes l a b d t) s
  | .rst | .rxIdle | .rxSkip _ | .rxSync | .rxAccum _ | .rxCfgOk _ | .rxDropCksum _ | .rxDropShort _ | .rxDropHdr _ =>
    exec i s
  | .txCfg _ _ _ | .txFrameStd _ _ _ | .txFrameExt _ _ _ | .txReject _ | .txXfer | .txWait | .txIdle => exec i s
  | .hdrConfig | .hdrData _ | .hdrOther _ | .pktCfg _ _ _ _ | .pktFrame _ _ _ _ _ => exec i s

/-- One edge of such a block; the rows it selects do not depend on the parameter. -/
def edgeWith (recon : IdRecon) (i : Inputs) (s : State) : Host.Outcome State Fault Refusal :=
  if i.rst then execWith recon .rst s else andThen (execWith recon (rxRow i s) s) (execWith recon (txRow i s))

/-- One step of such a block. -/
def stepWith (recon : IdRecon) (s : State) : Host.Outcome State Fault Refusal := edgeWith recon s.nextInputs s.fetched

end Sys2Proof.Machine
end

