-- ==== Sys2Proof/Machine/Serializer.lean ====
section
/-! DEFINITION. The transmit part of an edge whole, written from the pseudocode of R154 (`spec/43_tx_serializer.md`). As
with `Machine/Demux.lean`, the step of the machine decodes a row instead; that the two agree is an obligation. -/

namespace Sys2Proof.Machine

/-- `TxEdge` (R154), for an edge with `rst = 0`. -/
def txEdge (i : Inputs) (t : State) : State :=
  let t' := { t with txReject := false }
  if t.txBusy then
    (if i.txReady then
      (if t.txIdx.toNat + 1 = t.txLen.toNat then { t' with txBusy := false, txIdx := 0 }
      else { t' with txIdx := t.txIdx + 1 })
    else t')
  else if i.cfgValid then
    { t' with
      txPkt := storePacket (encodeConfig i.cfgSpeed i.cfgFtype i.cfgMode) t.txPkt
      txLen := 20
      txIdx := 0
      txBusy := true }
  else if i.txfValid then
    (if i.txfType = typeStandard ∨ i.txfType = typeExtended then
      { t' with
        txPkt := storePacket (encodeFrame i.txfId i.txfType i.txfDlc i.txfData) t.txPkt
        txLen := 13
        txIdx := 0
        txBusy := true }
    else { t' with txReject := true })
  else t'

end Sys2Proof.Machine
end

