-- ==== Sys2Proof/Safety.lean ====
section
/-! DEFINITION. What counts as a legal state and as an observation, in the terms the statements use: the invariants of
R25, R149 and R190, and which bytes of a state can never be seen (R24, R28). The host's duties (R234) are in
`Machine/Duties.lean`. -/

namespace Sys2Proof

open Machine

/-- The receive inputs of two edges are equal (R40). -/
def Inputs.SameReceive (i j : Inputs) : Prop := j.rst = i.rst ∧ j.rxValid = i.rxValid ∧ j.rxByte = i.rxByte

/-- The transmit inputs of two edges are equal (R40). -/
def Inputs.SameTransmit (i j : Inputs) : Prop :=
  j.rst = i.rst ∧ j.cfgValid = i.cfgValid ∧ j.cfgSpeed = i.cfgSpeed ∧ j.cfgFtype = i.cfgFtype ∧
  j.cfgMode = i.cfgMode ∧ j.txfValid = i.txfValid ∧ j.txfId = i.txfId ∧ j.txfType = i.txfType ∧
  j.txfDlc = i.txfDlc ∧ j.txfData = i.txfData ∧ j.txReady = i.txReady

end Sys2Proof

namespace Sys2Proof.Machine

/-- The invariant of the demultiplexer, bullet by bullet (R25 of `spec/10_state.md`). -/
abbrev State.DemuxInv (s : State) : Prop :=
  (s.sync = false → s.cur = 0) ∧
  (s.sync = true → 1 ≤ s.cur.toNat ∧ s.cur.toNat ≤ 19 ∧ Memory.read s.buf 0 = marker) ∧
  (s.sync = true ∧ 2 ≤ s.cur.toNat ∧ Memory.read s.buf 1 = tag → s.cur.toNat ≤ 19) ∧
  (s.sync = true ∧ 2 ≤ s.cur.toNat ∧ hiNibble (Memory.read s.buf 1) = 0xC →
    s.cur.toNat ≤ (loNibble (Memory.read s.buf 1)).toNat + 4) ∧
  (s.sync = true ∧ 2 ≤ s.cur.toNat → Memory.read s.buf 1 = tag ∨ hiNibble (Memory.read s.buf 1) = 0xC)

/-- The bound of the serializer's index (R149 of `spec/43_tx_serializer.md`). -/
abbrev State.TxInv (s : State) : Prop :=
  (s.txBusy = true → s.txIdx.toNat + 1 ≤ s.txLen.toNat ∧ (s.txLen = 13 ∨ s.txLen = 20)) ∧
  (s.txBusy = false → s.txIdx = 0)

/-- The buffer in its canonical form, only cells 0..19 ever written (R190 of `spec/44_demux.md`). -/
abbrev State.BufInv (s : State) : Prop :=
  Memory.wf s.buf = true ∧ s.buf.all (fun c => decide (c.1 < 20)) = true

/-- The receive outputs: a received frame carries type `00` (R42) and a 16-bit identifier (R176), and `rxf_valid` is up
exactly in a cycle whose event is `FRAME` (R96, R179). -/
abbrev State.OutInv (s : State) : Prop :=
  s.rxfType = typeStandard ∧ s.rxfId.toNat < 65536 ∧ (s.rxfValid = true ↔ s.rxEvt = .frame)

/-- Every invariant the rules give the state. -/
abbrev State.Inv (s : State) : Prop := s.DemuxInv ∧ s.TxInv ∧ s.BufInv ∧ s.OutInv

/-- Two states that differ at most in what can never be seen: buffer cells at or above the cursor (R24, R62), and
packet bytes at or above `tx_len`, or all of them while no packet is in flight (R28, R150). -/
def State.SameVisible (s t : State) : Prop :=
  (∀ k, k < s.cur.toNat → Memory.read s.buf k = Memory.read t.buf k) ∧
  (s.txBusy = true → ∀ k : Fin 20, k.val < s.txLen.toNat → s.txPkt[k] = t.txPkt[k]) ∧
  t = { s with buf := t.buf, txPkt := t.txPkt }

/-- The receive registers of two states are equal (R22 to R24, R27), the buffer cell by cell and as data. -/
def State.SameReceive (s t : State) : Prop :=
  t.sync = s.sync ∧ t.cur = s.cur ∧ t.buf = s.buf ∧ t.rxfValid = s.rxfValid ∧ t.rxfId = s.rxfId ∧
  t.rxfType = s.rxfType ∧ t.rxfDlc = s.rxfDlc ∧ t.rxfData = s.rxfData ∧ t.rxEvt = s.rxEvt

/-- The transmit registers of two states are equal (R28). -/
def State.SameTransmit (s t : State) : Prop :=
  t.txBusy = s.txBusy ∧ t.txIdx = s.txIdx ∧ t.txLen = s.txLen ∧ t.txPkt = s.txPkt ∧ t.txReject = s.txReject

/-- The frame registers of two states are equal: a frame is presented whole or not at all (R70). -/
def State.SameFrameFields (s t : State) : Prop :=
  t.rxfId = s.rxfId ∧ t.rxfType = s.rxfType ∧ t.rxfDlc = s.rxfDlc ∧ t.rxfData = s.rxfData

/-- The model's own fields of two states are equal: no operation of the block touches them. -/
def State.SameScript (s t : State) : Prop := t.stim = s.stim ∧ t.edges = s.edges

/-- The buffer cell a receive or header row stores its byte to (R171 step 1): cell 0 for the marker in Searching, the
cell at the cursor for an append, none where the byte is discarded or there is none. -/
def cellStored (s : State) : Instr → Option Nat
  | .rxSync => some 0
  | .rxAccum _ | .rxCfgOk _ | .rxDropCksum _ | .rxFrame _ | .rxDropShort _ | .rxDropHdr _ => some s.cur.toNat
  | .hdrConfig | .hdrData _ | .hdrOther _ => some s.cur.toNat
  | .rst | .rxIdle | .rxSkip _ => none
  | .txCfg _ _ _ | .txFrameStd _ _ _ | .txFrameExt _ _ _ | .txReject _ | .txXfer | .txWait | .txIdle => none
  | .pktCfg _ _ _ _ | .pktFrame _ _ _ _ _ | .pktFrameIn _ _ _ _ _ => none

/-- The event of a receive operation, and of reset (the "operation" column of R96); no other row has one. -/
def eventOf : Instr → Option Event
  | .rst => some .none
  | .rxIdle => some .none
  | .rxSkip _ => some .skip
  | .rxSync => some .sync
  | .rxAccum _ => some .accum
  | .rxCfgOk _ => some .cfgOk
  | .rxDropCksum _ => some .dropCksum
  | .rxFrame _ => some .frame
  | .rxDropShort _ => some .dropShape
  | .rxDropHdr _ => some .dropShape
  | .txCfg _ _ _ | .txFrameStd _ _ _ | .txFrameExt _ _ _ | .txReject _ | .txXfer | .txWait | .txIdle => none
  | .hdrConfig | .hdrData _ | .hdrOther _ | .pktCfg _ _ _ _ | .pktFrame _ _ _ _ _ | .pktFrameIn _ _ _ _ _ => none

/-- The bytes `rest`, consumed from the state `t`, are scanned in Searching: each is discarded up to the first marker,
and that marker starts a candidate (R125, R126 of `spec/42_frame_encoder.md`). -/
def State.Scans (recon : IdRecon) (t : State) (rest : List Byte) : Prop :=
  ∀ k, k < rest.length → marker ∉ rest.take k →
    (consumeEvents recon rest t)[k]? = some (if rest[k]? = some marker then .sync else .skip)

/-- Two outcomes of one kind, with related states where both go on. -/
def outcomesAgree (r : State → State → Prop) :
    Host.Outcome State Fault Refusal → Host.Outcome State Fault Refusal → Prop
  | .next s, .next t => r s t
  | .fault a, .fault b => a = b
  | .refused a, .refused b => a = b
  | .next _, .fault _ | .next _, .refused _ | .fault _, .next _ | .fault _, .refused _ => False
  | .refused _, .next _ | .refused _, .fault _ => False

end Sys2Proof.Machine
end

