-- ==== Sys2Proof/WellFormed.lean ====
section
/-! DEFINITION. Which terms of `Instr` stand for an operation of the table: the conditions the rows put on their own
operands (the "condition" column of `spec/opcode_table.json`, R81, R83, R86 of `spec/30_encoding.md`). Conditions on the
machine's state are not here: the decoder reads them as `Completion`. -/

namespace Sys2Proof

/-- The operands a row admits. `RX.SKIP` takes every byte but the marker (R181); `HDR.OTHER` takes the 239 bytes that are
neither `0x55` nor of high nibble `0xC` (R86); `PKT.CFG` carries the checksum that R88 gives; `PKT.FRAME.IN` carries as
many payload bytes as it declares (R83). Every other row takes every operand: `txf_dlc` 9..15 is sent as given (R124),
and a completing byte may have any value (R175, R186). -/
def Instr.wf : Instr → Bool
  | .rst => true
  | .rxIdle => true
  | .rxSkip b => b != marker
  | .rxSync => true
  | .rxAccum _ => true
  | .rxCfgOk _ => true
  | .rxDropCksum _ => true
  | .rxFrame _ => true
  | .rxDropShort _ => true
  | .rxDropHdr _ => true
  | .txCfg _ _ _ => true
  | .txFrameStd _ _ _ => true
  | .txFrameExt _ _ _ => true
  | .txReject _ => true
  | .txXfer => true
  | .txWait => true
  | .txIdle => true
  | .hdrConfig => true
  | .hdrData _ => true
  | .hdrOther b => b != tag && b.extractLsb' 4 4 != 0xC
  | .pktCfg s f m c => c == s + f + m + 0x13
  | .pktFrame _ _ _ _ _ => true
  | .pktFrameIn l _ _ d _ => d.length == l.toNat

end Sys2Proof
end

