-- ==== Sys2Proof/Certificates/Slice0/Obligations.lean ====
section
/-! DEFINITION. The statements for the provers. Each docstring names the rule it formalises; "log n" is a row of
`notes/assumptions`. None speaks of a program. -/

open Sys2Proof Sys2Proof.Machine

/-! ### Reset -/

/-- R251: an edge with `rst = 1` runs `RST` whatever the other inputs are; it sets every register to its reset value and
keeps `buf` and `tx_pkt` (and the model's own script, logs 1 and 2); both ready signals are 0 and nothing is accepted or
transferred. -/
def Obligations.ResetEdgeSetsEveryRegister : Prop :=
  ∀ (i : Inputs) (s : State), i.rst = true →
    edge i s = exec .rst s ∧
    exec .rst s = .next
      { sync := false, cur := 0, buf := s.buf, rxfValid := false, rxfId := 0, rxfType := 0, rxfDlc := 0, rxfData := 0,
        rxEvt := .none, txBusy := false, txIdx := 0, txLen := 0, txPkt := s.txPkt, txReject := false,
        stim := s.stim, edges := s.edges } ∧
    cfgReady i s = false ∧ txfReady i s = false ∧ cfgAccepted i s = false ∧ txfAccepted i s = false ∧
    transferred i s = false

/-- The invariants hold at reset, and `RST` leaves the reset state as it is. The contents of `buf` and `tx_pkt` there are
the model's choice (logs 3 and 4); nothing here rests on them but their canonical form. -/
def Obligations.ResetStateIsLegal : Prop :=
  State.reset.Inv ∧ exec .rst State.reset = .next State.reset

/-! ### The receive operations -/

/-- R180: an edge with no byte runs `RX.IDLE`, which leaves the demultiplexer and the frame registers unchanged. -/
def Obligations.IdleLeavesDemuxUnchanged : Prop :=
  ∀ (i : Inputs) (s : State), i.rst = false → i.rxValid = false →
    rxRow i s = .rxIdle ∧ exec .rxIdle s = .next { s with rxEvt := .none, rxfValid := false }

/-- R181: in Searching every byte but the marker is discarded by `RX.SKIP`, the state unchanged. -/
def Obligations.SearchingSkipsAllButMarker : Prop :=
  ∀ (i : Inputs) (s : State), i.rst = false → i.rxValid = true → s.sync = false → i.rxByte ≠ 0xAA →
    rxRow i s = .rxSkip i.rxByte ∧ exec (.rxSkip i.rxByte) s = .next { s with rxEvt := .skip, rxfValid := false }

/-- R182: in Searching the marker runs `RX.SYNC`, which stores it and enters Accumulating; no other operation of an edge
enters Accumulating. -/
def Obligations.MarkerEntersAccumulating : Prop :=
  (∀ (i : Inputs) (s : State), i.rst = false → i.rxValid = true → s.sync = false → i.rxByte = 0xAA →
    rxRow i s = .rxSync ∧
    exec .rxSync s = .next
      { s with buf := Memory.write s.buf 0 0xAA, cur := 1, sync := true, rxEvt := .sync, rxfValid := false }) ∧
  (∀ (i : Inputs) (s t : State), edge i s = .next t → s.sync = false → t.sync = true → rxRow i s = .rxSync)

/-- R183: a byte that leaves the candidate incomplete runs `RX.ACCUM`, an append with event `ACCUM`; it happens for the
cursors the rule lists. -/
def Obligations.AccumAppendsTheByte : Prop :=
  ∀ (i : Inputs) (s : State), i.rst = false → i.rxValid = true → s.sync = true → 1 ≤ s.cur.toNat →
    complete (Memory.read (Memory.write s.buf s.cur.toNat i.rxByte)) (s.cur.toNat + 1) = false →
    rxRow i s = .rxAccum i.rxByte ∧
    exec (.rxAccum i.rxByte) s = .next
      { s with
        buf := Memory.write s.buf s.cur.toNat i.rxByte
        cur := s.cur + 1
        rxEvt := .accum
        rxfValid := false } ∧
    (s.cur + 1).toNat = s.cur.toNat + 1 ∧
    let b1 := Memory.read (Memory.write s.buf s.cur.toNat i.rxByte) 1
    (b1 = 0x55 ∧ s.cur.toNat + 1 ≤ 19 ∨ hiNibble b1 = 0xC ∧ s.cur.toNat + 1 ≤ (loNibble b1).toNat + 4)

/-- R184: the twentieth byte of a configuration-shaped candidate, equal to the sum of the 17 bytes 2..18 modulo 256 (R10),
runs `RX.CFG_OK`. -/
def Obligations.ConfigEchoIsConsumedSilently : Prop :=
  ∀ (i : Inputs) (s : State), i.rst = false → i.rxValid = true → s.sync = true → s.cur = 19 →
    Memory.read s.buf 0 = 0xAA → Memory.read s.buf 1 = 0x55 →
    ((List.range 17).map fun k => (Memory.read s.buf (2 + k)).toNat).sum % 256 = i.rxByte.toNat →
    rxRow i s = .rxCfgOk i.rxByte ∧
    exec (.rxCfgOk i.rxByte) s = .next
      { s with
        buf := Memory.write s.buf 19 i.rxByte
        sync := false
        cur := 0
        rxEvt := .cfgOk
        rxfValid := false }

/-- R185: the same with another checksum runs `RX.DROP_CKSUM`: no frame, back to Searching. -/
def Obligations.WrongChecksumIsDropped : Prop :=
  ∀ (i : Inputs) (s : State), i.rst = false → i.rxValid = true → s.sync = true → s.cur = 19 →
    Memory.read s.buf 0 = 0xAA → Memory.read s.buf 1 = 0x55 →
    ((List.range 17).map fun k => (Memory.read s.buf (2 + k)).toNat).sum % 256 ≠ i.rxByte.toNat →
    rxRow i s = .rxDropCksum i.rxByte ∧
    exec (.rxDropCksum i.rxByte) s = .next
      { s with
        buf := Memory.write s.buf 19 i.rxByte
        sync := false
        cur := 0
        rxEvt := .dropCksum
        rxfValid := false }

/-- R186 and R177: the byte that completes a data-shaped candidate with `L ≥ 1`, whatever its value, runs `RX.FRAME` and
emits the frame: the identifier by `ID_RECON`, type `00`, `dlc = L`, the first `min(L, 8)` payload bytes, zeros after
them. The default of `ID_RECON` is `b3 ++ b2` (R176), and a block with another one differs in the identifier alone (R6; log
7). -/
def Obligations.FrameIsBuiltAndEmitted : Prop :=
  (∀ b2 b3 : Byte, idRecon b2 b3 = b3 ++ b2) ∧
  ∀ (i : Inputs) (s : State) (l : BitVec 4), i.rst = false → i.rxValid = true → s.sync = true → 1 ≤ l.toNat →
    s.cur.toNat = l.toNat + 4 → Memory.read s.buf 0 = 0xAA → Memory.read s.buf 1 = (0xC#4 ++ l) →
    rxRow i s = .rxFrame i.rxByte ∧
    ∃ t, exec (.rxFrame i.rxByte) s = .next t ∧
      t = { s with
            buf := Memory.write s.buf s.cur.toNat i.rxByte
            sync := false
            cur := 0
            rxEvt := .frame
            rxfValid := true
            rxfId := (idRecon (Memory.read s.buf 2) (Memory.read s.buf 3)).setWidth 32
            rxfType := 0b00
            rxfDlc := l
            rxfData := t.rxfData } ∧
      (∀ k, k < 8 → dataByte t.rxfData k = if k < min l.toNat 8 then Memory.read s.buf (4 + k) else 0x00) ∧
      ∀ recon : IdRecon, execWith recon (.rxFrame i.rxByte) s =
        .next { t with rxfId := (recon (Memory.read s.buf 2) (Memory.read s.buf 3)).setWidth 32 }

/-- R187: the fifth byte of a data-shaped candidate with `L = 0` runs `RX.DROP_SHORT`: no frame. -/
def Obligations.ZeroLengthFrameIsDropped : Prop :=
  ∀ (i : Inputs) (s : State), i.rst = false → i.rxValid = true → s.sync = true → s.cur = 4 →
    Memory.read s.buf 1 = 0xC0 →
    rxRow i s = .rxDropShort i.rxByte ∧
    exec (.rxDropShort i.rxByte) s = .next
      { s with
        buf := Memory.write s.buf 4 i.rxByte
        sync := false
        cur := 0
        rxEvt := .dropShape
        rxfValid := false }

/-- R188: a byte 1 that is neither `0x55` nor of high nibble `0xC` runs `RX.DROP_HDR`: no frame. -/
def Obligations.UnrecognisedHeaderIsDropped : Prop :=
  ∀ (i : Inputs) (s : State), i.rst = false → i.rxValid = true → s.sync = true → s.cur = 1 → i.rxByte ≠ 0x55 →
    hiNibble i.rxByte ≠ 0xC →
    rxRow i s = .rxDropHdr i.rxByte ∧
    exec (.rxDropHdr i.rxByte) s = .next
      { s with
        buf := Memory.write s.buf 1 i.rxByte
        sync := false
        cur := 0
        rxEvt := .dropShape
        rxfValid := false }

/-- The frame of the receive and header rows: no transmit register and no script field changes, no buffer cell but the one
the row stores to, and no frame register but by `RX.FRAME`. The rules speak of the receive rows; that the header rows are
operations (log 10) and that State has script fields (log 2) is the model's choice. -/
def Obligations.ReceiveRowsFrame : Prop :=
  ∀ (i : Instr) (b : Byte) (l : BitVec 4) (s t : State),
    i ∈ [Instr.rxIdle, .rxSkip b, .rxSync, .rxAccum b, .rxCfgOk b, .rxDropCksum b, .rxFrame b, .rxDropShort b,
      .rxDropHdr b, .hdrConfig, .hdrData l, .hdrOther b] →
    exec i s = .next t →
    s.SameTransmit t ∧ s.SameScript t ∧
    (∀ k, cellStored s i ≠ some k → Memory.read t.buf k = Memory.read s.buf k) ∧
    (i ≠ .rxFrame b → s.SameFrameFields t)

/-- R172: in Accumulating every byte is appended, whatever its value; the marker too is content and restarts nothing. -/
def Obligations.AccumulatingAppendsAnyByte : Prop :=
  ∀ (i : Inputs) (s t : State), i.rst = false → i.rxValid = true → s.sync = true → edge i s = .next t →
    Memory.read t.buf s.cur.toNat = i.rxByte ∧
    (∀ k, k ≠ s.cur.toNat → Memory.read t.buf k = Memory.read s.buf k) ∧
    rxRow i s ≠ .rxSync ∧ (t.sync = true → t.cur = s.cur + 1)

/-- The model's choice of log 5, which no legal state reaches (R25, R60): an append at a cell index of 100 or more faults, by
every row that appends, and nothing else stops these rows. -/
def Obligations.AppendOutsideTheBufferFaults : Prop :=
  (∀ (i : Instr) (b : Byte) (l : BitVec 4) (s : State),
    i ∈ [Instr.rxAccum b, .rxCfgOk b, .rxDropCksum b, .rxFrame b, .rxDropShort b, .rxDropHdr b, .hdrConfig, .hdrData l,
      .hdrOther b] →
    (100 ≤ s.cur.toNat → exec i s = .fault .bufferIndex) ∧ (s.cur.toNat < 100 → ∃ t, exec i s = .next t)) ∧
  (∀ (l : BitVec 4) (a b : Byte) (d : List Byte) (tr : Byte) (s : State), s.sync = true → 100 ≤ s.cur.toNat →
    exec (.pktFrameIn l a b d tr) s = .fault .bufferIndex)

/-! ### Candidates -/

/-- R85: the length of a candidate is decided by byte 1 alone, and nothing is complete before byte 1 is in. -/
def Obligations.LengthIsDecidedByByteOne : Prop :=
  ∀ (cell : Nat → Byte) (n : Nat),
    complete cell n = true ↔
      2 ≤ n ∧ (if cell 1 = 0x55 then 20 else if hiNibble (cell 1) = 0xC then (loNibble (cell 1)).toNat + 5 else 2) ≤ n

/-- R189: with a low nibble of 8 the predicate is false at cursor 12 and true at cursor 13. -/
def Obligations.CompletenessBoundaryIsExact : Prop :=
  ∀ cell : Nat → Byte, cell 1 = 0xC8 → complete cell 12 = false ∧ complete cell 13 = true

/-- R194: a candidate that starts at a marker consumed in Searching is held, byte after byte, until exactly its length is
reached, and then the demultiplexer is in Searching again, whatever `ID_RECON` is. -/
def Obligations.CandidateCompletesAtItsLength : Prop :=
  ∀ (recon : IdRecon) (s : State) (b1 : Byte) (bs : List Byte), s.sync = false →
    (0xAA :: b1 :: bs : List Byte).length =
      (if b1 = 0x55 then 20 else if hiNibble b1 = 0xC then (loNibble b1).toNat + 5 else 2) →
    (∀ k, 0 < k → k < (0xAA :: b1 :: bs : List Byte).length →
      ∃ t, consume recon ((0xAA :: b1 :: bs).take k) s = .next t ∧ t.sync = true ∧ t.cur.toNat = k ∧
        ∀ j, j < k → (0xAA :: b1 :: bs : List Byte)[j]? = some (Memory.read t.buf j)) ∧
    ∃ t, consume recon (0xAA :: b1 :: bs) s = .next t ∧ t.sync = false ∧ t.cur = 0

/-! ### Header classes and packets -/

/-- R86: the three classes are total and exclusive, with 1, 16 and 239 values. -/
def Obligations.HeaderClassesPartitionTheBytes : Prop :=
  (∀ (b : Byte) (i : Instr), decodeHdr b = i ↔
    (i = .hdrConfig ∧ b &&& 0xFF = 0x55) ∨ (i = .hdrData (b.extractLsb' 0 4) ∧ b &&& 0xF0 = 0xC0) ∨
    (i = .hdrOther b ∧ b &&& 0xFF ≠ 0x55 ∧ b &&& 0xF0 ≠ 0xC0)) ∧
  ((List.range 256).filter fun v => headerClass (BitVec.ofNat 8 v) == .config).length = 1 ∧
  ((List.range 256).filter fun v => headerClass (BitVec.ofNat 8 v) == .data (BitVec.ofNat 4 v)).length = 16 ∧
  ((List.range 256).filter fun v => headerClass (BitVec.ofNat 8 v) == .other).length = 239

/-- The header rows complete: with only the marker held, byte 1 is appended; the candidate goes on for `HDR.CONFIG` and
`HDR.DATA` and ends, dropped, for `HDR.OTHER` (R85, R183, R188; as operations by log 10). -/
def Obligations.HeaderRowsConsumeByteOne : Prop :=
  ∀ (s : State), s.sync = true → s.cur = 1 →
    exec .hdrConfig s = .next
      { s with buf := Memory.write s.buf 1 0x55, cur := 2, rxEvt := .accum, rxfValid := false } ∧
    (∀ l, exec (.hdrData l) s = .next
      { s with buf := Memory.write s.buf 1 (0xC#4 ++ l), cur := 2, rxEvt := .accum, rxfValid := false }) ∧
    (∀ b, (Instr.hdrOther b).wf = true → exec (.hdrOther b) s = .next
      { s with buf := Memory.write s.buf 1 b, sync := false, cur := 0, rxEvt := .dropShape, rxfValid := false })

/-- The header row of byte 1 has the effect of the receive row that the edge runs (R80, R86; log 10). -/
def Obligations.HeaderRowIsTheReceiveRow : Prop :=
  ∀ (i : Inputs) (s : State), i.rst = false → i.rxValid = true → s.sync = true → s.cur = 1 →
    exec (decodeHdr i.rxByte) s = exec (rxRow i s) s

/-- The outbound packet rows have the effect of the request that builds the packet (R110, R120; log 11), for a command
with the checksum of R88 and for every frame packet. -/
def Obligations.PacketRowIsTheRequest : Prop :=
  (∀ (sp ft md c : Byte) (s : State), (Instr.pktCfg sp ft md c).wf = true →
    exec (.pktCfg sp ft md c) s = exec (.txCfg sp ft md) s) ∧
  (∀ (l : BitVec 4) (id : BitVec 32) (d : BitVec 64) (s : State),
    exec (.pktFrame false l (id.extractLsb' 0 8) (id.extractLsb' 8 8) d) s = exec (.txFrameStd id l d) s ∧
    exec (.pktFrame true l (id.extractLsb' 0 8) (id.extractLsb' 8 8) d) s = exec (.txFrameExt id l d) s)

/-- The outbound packet rows complete: the bytes of R81 and R82, spelt out, are what the serializer then holds. -/
def Obligations.PacketRowsLoadTheirBytes : Prop :=
  (∀ (sp ft md c : Byte) (s : State), ∃ t, exec (.pktCfg sp ft md c) s = .next t ∧
    t = { s with txPkt := t.txPkt, txLen := 20, txIdx := 0, txBusy := true, txReject := false } ∧
    t.txPkt = #v[0xAA, 0x55, 0x12, sp, ft, 0, 0, 0, 0, 0, 0, 0, 0, md, 0x01, 0, 0, 0, 0, c]) ∧
  (∀ (e : Bool) (l : BitVec 4) (a b : Byte) (d : BitVec 64) (s : State),
    ∃ t, exec (.pktFrame e l a b d) s = .next t ∧
      t = { s with txPkt := t.txPkt, txLen := 13, txIdx := 0, txBusy := true, txReject := false } ∧
      t.txPkt = #v[0xAA, 0xC0 ||| (if e then 0x20 else 0) ||| l.setWidth 8, a, b, dataByte d 0, dataByte d 1,
        dataByte d 2, dataByte d 3, dataByte d 4, dataByte d 5, dataByte d 6, dataByte d 7, 0x55, s.txPkt[13],
        s.txPkt[14], s.txPkt[15], s.txPkt[16], s.txPkt[17], s.txPkt[18], s.txPkt[19]])

/-- The inbound packet row completes: consumed from Searching, a frame of any declared length leaves the demultiplexer in
Searching with its bytes in the buffer; with `L ≥ 1` it is emitted as R177 says, with `L = 0` it is dropped; no transmit
register, no script field and no other buffer cell changes; a block with another `ID_RECON` differs in the identifier alone
(R83, R186, R187, R193, R6; log 11). -/
def Obligations.InboundPacketIsDecoded : Prop :=
  ∀ (l : BitVec 4) (a b : Byte) (d : List Byte) (tr : Byte) (s : State),
    (Instr.pktFrameIn l a b d tr).wf = true → s.sync = false →
    ∃ t, exec (.pktFrameIn l a b d tr) s = .next t ∧
      t.sync = false ∧ t.cur = 0 ∧ s.SameTransmit t ∧ s.SameScript t ∧
      (∀ k, Memory.read t.buf k = ((0xAA :: (0xC#4 ++ l) :: a :: b :: (d ++ [tr]))[k]?).getD (Memory.read s.buf k)) ∧
      (l = 0 → t.rxEvt = .dropShape ∧ t.rxfValid = false ∧ s.SameFrameFields t) ∧
      (l ≠ 0 → t.rxEvt = .frame ∧ t.rxfValid = true ∧ t.rxfId = (idRecon a b).setWidth 32 ∧ t.rxfType = 0b00 ∧
        t.rxfDlc = l ∧ ∀ k, k < 8 → dataByte t.rxfData k = (d[k]?).getD 0x00) ∧
      ∀ recon : IdRecon, execWith recon (.pktFrameIn l a b d tr) s =
        .next { t with rxfId := if l = 0 then t.rxfId else (recon a b).setWidth 32 }

/-! ### The transmit operations -/

/-- R144, R110, R111: a configuration request is accepted; the serializer holds the 20 bytes of the command, its checksum
the sum of the codes and `0x13`. -/
def Obligations.ConfigRequestIsEncoded : Prop :=
  ∀ (i : Inputs) (s : State), i.rst = false → s.txBusy = false → i.cfgValid = true →
    cfgAccepted i s = true ∧ txfAccepted i s = false ∧ txRow i s = .txCfg i.cfgSpeed i.cfgFtype i.cfgMode ∧
    ∃ t, exec (.txCfg i.cfgSpeed i.cfgFtype i.cfgMode) s = .next t ∧
      t = { s with txPkt := t.txPkt, txLen := 20, txIdx := 0, txBusy := true, txReject := false } ∧
      t.txPkt = #v[0xAA, 0x55, 0x12, i.cfgSpeed, i.cfgFtype, 0, 0, 0, 0, 0, 0, 0, 0, i.cfgMode, 0x01, 0, 0, 0, 0,
        i.cfgSpeed + i.cfgFtype + i.cfgMode + 0x13]

/-- R145, R120 to R124, R150: a Standard or Extended frame request is accepted; the serializer holds the 13 bytes of the
packet, `tx_pkt[13..19]` as they were. -/
def Obligations.FrameRequestIsEncoded : Prop :=
  ∀ (i : Inputs) (s : State), i.rst = false → s.txBusy = false → i.cfgValid = false → i.txfValid = true →
    (i.txfType = 0b00 ∨ i.txfType = 0b01) →
    let row := if i.txfType = 0b01 then Instr.txFrameExt i.txfId i.txfDlc i.txfData
      else Instr.txFrameStd i.txfId i.txfDlc i.txfData
    txfAccepted i s = true ∧ txRow i s = row ∧
    ∃ t, exec row s = .next t ∧
      t = { s with txPkt := t.txPkt, txLen := 13, txIdx := 0, txBusy := true, txReject := false } ∧
      t.txPkt = #v[0xAA, 0xC0 ||| (if i.txfType = 0b01 then 0x20 else 0) ||| i.txfDlc.setWidth 8,
        i.txfId.extractLsb' 0 8, i.txfId.extractLsb' 8 8, dataByte i.txfData 0, dataByte i.txfData 1,
        dataByte i.txfData 2, dataByte i.txfData 3, dataByte i.txfData 4, dataByte i.txfData 5, dataByte i.txfData 6,
        dataByte i.txfData 7, 0x55, s.txPkt[13], s.txPkt[14], s.txPkt[15], s.txPkt[16], s.txPkt[17], s.txPkt[18],
        s.txPkt[19]]

/-- R146: a frame request of type `10` or `11` is accepted by `TX.REJECT`, which changes `tx_reject_q` alone. -/
def Obligations.ErrorTypedRequestIsRejected : Prop :=
  ∀ (i : Inputs) (s : State), i.rst = false → s.txBusy = false → i.cfgValid = false → i.txfValid = true →
    (i.txfType = 0b10 ∨ i.txfType = 0b11) →
    txfAccepted i s = true ∧ txRow i s = .txReject (i.txfType == 0b11) ∧
    exec (.txReject (i.txfType == 0b11)) s = .next { s with txReject := true }

/-- R147: a transfer ends the packet at its last byte and moves to the next byte otherwise. -/
def Obligations.TransferAdvancesOrEnds : Prop :=
  ∀ (i : Inputs) (s : State), i.rst = false → s.txBusy = true → i.txReady = true → s.TxInv →
    txRow i s = .txXfer ∧
    exec .txXfer s = .next
      (if s.txIdx.toNat = s.txLen.toNat - 1 then { s with txBusy := false, txIdx := 0, txReject := false }
      else { s with txIdx := BitVec.ofNat 5 (s.txIdx.toNat + 1), txReject := false })

/-- R151 and R152: a packet in flight waits for the transport, and an idle serializer with no request stays idle; nothing
changes but `tx_reject_q`. -/
def Obligations.WaitAndIdleChangeNothing : Prop :=
  (∀ (i : Inputs) (s : State), i.rst = false → s.txBusy = true → i.txReady = false →
    txRow i s = .txWait ∧ exec .txWait s = .next { s with txReject := false }) ∧
  (∀ (i : Inputs) (s : State), i.rst = false → s.txBusy = false → i.cfgValid = false → i.txfValid = false →
    txRow i s = .txIdle ∧ exec .txIdle s = .next { s with txReject := false })

/-- The frame of the transmit rows and the outbound packet rows: no receive register, no buffer cell and no script field
changes; `tx_pkt` only by an acceptance, and by a frame's only in its first 13 bytes. The rules speak of the transmit rows;
that `PKT.CFG` and `PKT.FRAME` are operations (log 11) and that State has script fields (log 2) is the model's choice. -/
def Obligations.TransmitRowsFrame : Prop :=
  ∀ (i : Instr) (x y z c : Byte) (id : BitVec 32) (dlc : BitVec 4) (data : BitVec 64) (e : Bool) (s t : State),
    i ∈ [Instr.txCfg x y z, .txFrameStd id dlc data, .txFrameExt id dlc data, .txReject e, .txXfer, .txWait, .txIdle,
      .pktCfg x y z c, .pktFrame e dlc x y data] →
    exec i s = .next t →
    s.SameReceive t ∧ s.SameScript t ∧ (∀ k, Memory.read t.buf k = Memory.read s.buf k) ∧
    (i ∈ [Instr.txReject e, .txXfer, .txWait, .txIdle] → t.txPkt = s.txPkt ∧ t.txLen = s.txLen) ∧
    (i ∈ [Instr.txReject e, .txWait, .txIdle] → t.txBusy = s.txBusy ∧ t.txIdx = s.txIdx) ∧
    (i ∈ [Instr.txFrameStd id dlc data, .txFrameExt id dlc data, .pktFrame e dlc x y data] →
      ∀ k : Fin 20, 13 ≤ k.val → t.txPkt[k] = s.txPkt[k])

/-- R153: `tx_reject_q` is written at every edge: 1 by `TX.REJECT`, 0 by every other, reset included. -/
def Obligations.RejectPulseLastsOneCycle : Prop :=
  ∀ (i : Inputs) (s t : State), edge i s = .next t → (t.txReject = true ↔ ∃ r, txRow i s = .txReject r)

/-- R142: with both requests presented and no packet in flight, the configuration request is accepted and the frame
request waits. -/
def Obligations.ConfigurationWinsOverFrame : Prop :=
  ∀ (i : Inputs) (s : State), i.rst = false → i.cfgValid = true → i.txfValid = true → s.txBusy = false →
    cfgAccepted i s = true ∧ txfAccepted i s = false ∧ txRow i s = .txCfg i.cfgSpeed i.cfgFtype i.cfgMode

/-- R141 and R148: the two ready signals, `tx_valid` and `tx_byte`, from the registers and the inputs of the same cycle; the
index is that of a byte of the packet by R149. -/
def Obligations.OutboundPortsFollowTheRegisters : Prop :=
  ∀ (i : Inputs) (s : State), s.TxInv →
    ((outputs i s).cfgReady = true ↔ i.rst = false ∧ s.txBusy = false) ∧
    ((outputs i s).txfReady = true ↔ i.rst = false ∧ s.txBusy = false ∧ i.cfgValid = false) ∧
    (outputs i s).txValid = s.txBusy ∧
    (s.txBusy = false → (outputs i s).txByte = 0x00) ∧
    (s.txBusy = true → ∃ h : s.txIdx.toNat < 20, (outputs i s).txByte = s.txPkt[s.txIdx.toNat])

/-- R140, R143: the handshakes and the rows say the same: an acceptance runs an accepting row, a transfer runs `TX.XFER`;
nothing is accepted while a packet is in flight, and no edge both accepts and transfers. -/
def Obligations.HandshakesMatchTheRows : Prop :=
  ∀ (i : Inputs) (s : State),
    (cfgAccepted i s = true ↔ txRow i s = .txCfg i.cfgSpeed i.cfgFtype i.cfgMode) ∧
    (txfAccepted i s = true ↔
      txRow i s = .txFrameStd i.txfId i.txfDlc i.txfData ∨ txRow i s = .txFrameExt i.txfId i.txfDlc i.txfData ∨
      ∃ r, txRow i s = .txReject r) ∧
    (transferred i s = true ↔ txRow i s = .txXfer) ∧
    (s.txBusy = true → cfgAccepted i s = false ∧ txfAccepted i s = false) ∧
    (cfgAccepted i s = true ∨ txfAccepted i s = true → transferred i s = false)

/-- R155 and R147, R148: after an acceptance with `tx_ready = 1` throughout, the cycle after `k` more edges shows byte `k`
of the packet for every `k` below its length, and after exactly its length the serializer is ready again. -/
def Obligations.PacketLeavesByteByByte : Prop :=
  ∀ (s : State) (i : Inputs) (is : List Inputs), s.Inv → i.rst = false →
    (cfgAccepted i s = true ∨ txfAccepted i s = true ∧ (i.txfType = 0b00 ∨ i.txfType = 0b01)) →
    (∀ j ∈ is, j.rst = false ∧ j.txReady = true) →
    ∃ u, edge i s = .next u ∧ (u.txLen = 13 ∨ u.txLen = 20) ∧
      (∀ h : is.length < 20, is.length < u.txLen.toNat →
        ∃ v, runEdges is u = .next v ∧ v.txBusy = true ∧ v.txIdx.toNat = is.length ∧
          txByte v = u.txPkt[is.length] ∧ ∀ j : Inputs, cfgReady j v = false ∧ txfReady j v = false) ∧
      (is.length = u.txLen.toNat →
        ∃ v, runEdges is u = .next v ∧ v.txBusy = false ∧ txByte v = 0x00 ∧
          ∀ j : Inputs, j.rst = false → cfgReady j v = true)

/-- R234 and R146: a host that keeps its duty on frame requests never sees `tx_reject`; one that keeps every duty over a
run presents bytes of the link in order, each once, no cycle of the run shows `tx_reject`, and where it presents a frame
request no byte of the echo of a command accepted so far is left to present, and none of a part-presented echo has been
presented without a reset edge (R260). How the duties read on the ports is log 15. -/
def Obligations.DutifulHostIsNeverRejected : Prop :=
  (∀ (i : Inputs) (s t : State), i.keepsFrameDuty → edge i s = .next t → t.txReject = false) ∧
  (∀ (h : HostParams) (m : HostMemory) (is : List Inputs) (s t : State),
    keepsDuties h m is s = true → runEdges is s = .next t →
      presentedBytes is <+: m.link.map LinkByte.byte ∧ (is ≠ [] → t.txReject = false)) ∧
  (∀ (h : HostParams) (m : HostMemory) (is : List Inputs) (j : Inputs) (s u : State),
    keepsDuties h m (is ++ [j]) s = true → runEdges is s = .next u → j.txfValid = true →
      (∀ b ∈ m.link.drop (presentedBytes is).length, ∀ n, b.origin = .echo n ∨ b.origin = .echoPart n →
        m.commands + (acceptedCommands is s).length ≤ n) ∧
      ((∀ i ∈ is, i.rst = false) →
        ∀ b ∈ m.link.take (presentedBytes is).length, ∀ n, b.origin ≠ .echoPart n))

/-- R263 and R234: over a run that keeps every duty, a request presented at its first edge stays on the ports unchanged up to
and including the edge that accepts it, so what is accepted is what was presented. How the duties read on the ports is
log 15. -/
def Obligations.DutifulRequestIsHeld : Prop :=
  ∀ (h : HostParams) (m : HostMemory) (i : Inputs) (is : List Inputs) (j : Inputs) (s u : State),
    keepsDuties h m (i :: is ++ [j]) s = true → runEdges (i :: is) s = .next u →
    (i.cfgValid = true → acceptedCommands (i :: is) s = [] →
      j.cfgValid = true ∧ i.SameCodes j ∧
      (cfgAccepted j u = true → txRow j u = .txCfg i.cfgSpeed i.cfgFtype i.cfgMode)) ∧
    (i.txfValid = true → acceptedFrames (i :: is) s = [] →
      j.txfValid = true ∧ i.SameFrame j ∧
      (txfAccepted j u = true →
        txRow j u = if i.txfType = 0b01 then .txFrameExt i.txfId i.txfDlc i.txfData
          else .txFrameStd i.txfId i.txfDlc i.txfData))

/-- R72, R140, R143, R234: without reset, the bytes the transport takes are those of the packet in flight and then those of
the accepted requests' packets, in order, none lost and none added; what is not yet taken is still to be sent. -/
def Obligations.OutboundBytesArePacketsInOrder : Prop :=
  ∀ (is : List Inputs) (s t : State), s.TxInv → (∀ i ∈ is, i.rst = false) → runEdges is s = .next t →
    sentBytes is s ++ t.pending = s.pending ++ acceptedPackets is s

/-! ### The driver -/

/-- R233, R196: what the receive calls do. A non-blocking call with no byte makes no edge and gets none; with a byte it makes
one edge and gets the frame that edge emitted, or none. A blocking call ends at the first edge that emits a frame, or at
a failure of the transport, or is still suspended when the arrivals end; from a legal state it never stops the machine. -/
def Obligations.ReceiveCallsEndAsTheContractSays : Prop :=
  (∀ (o : Inputs) (s : State), receiveNow o none s = .next (s, .noFrame)) ∧
  (∀ (o : Inputs) (b : Byte) (s t : State) (r : ReceiveResult), receiveNow o (some b) s = .next (t, r) →
    edge { o with rst := false, rxValid := true, rxByte := b } s = .next t ∧
    (∀ f, r = .frame f ↔ t.rxfValid = true ∧ f = ⟨t.rxfId, t.rxfType, t.rxfDlc, t.rxfData⟩) ∧
    (r = .noFrame ↔ t.rxfValid = false)) ∧
  (∀ (arrivals rest : List (Inputs × Arrival)) (s t : State) (r : ReceiveResult),
    receiveBlocking arrivals s = .next (t, r, rest) →
    ∃ before : List (Inputs × Arrival), (∀ a ∈ before, a.2 ≠ .fails) ∧
      (∀ n, 0 < n → n ≤ before.length → ∃ v,
        runEdges ((before.take n).map fun a => a.2.inputs a.1) s = .next v ∧ v.rxfValid = false) ∧
      ∃ u, runEdges (before.map fun a => a.2.inputs a.1) s = .next u ∧
        ((r = .suspended ∧ arrivals = before ∧ rest = [] ∧ t = u) ∨
        (r = .transportFailure ∧ t = u ∧ ∃ o, arrivals = before ++ (o, .fails) :: rest) ∨
        (∃ o b, arrivals = before ++ (o, .byte b) :: rest ∧ edge (Arrival.inputs o (.byte b)) u = .next t ∧
          t.rxfValid = true ∧ r = .frame ⟨t.rxfId, t.rxfType, t.rxfDlc, t.rxfData⟩))) ∧
  (∀ (arrivals : List (Inputs × Arrival)) (s : State), s.Inv → ∃ x, receiveBlocking arrivals s = .next x)

/-- R233, R253, R260, R261: `open` refuses an unsupported rate with no port activity; from any state, a session of `open` with
checked codes, one `send` of a frame the link carries and `close`, driven for any number of edges, keeps every duty of
the table of R234 (log 15), whatever is done with the echo; after `close`, for any number of edges, nothing is presented or
taken and the block keeps its state (R26, D27), a packet in flight too, but for the pulse registers, which fall as at every
edge. The script is the model's own (log 2). -/
def Obligations.DriverOpensSendsAndCloses : Prop :=
  (∀ (mapping : Nat → Option AdapterCodes) (rate : Nat) (echo : Echo),
    openCall mapping rate echo =
      if h : (mapping rate).isSome then .drives (openScript Config.settleEdges ((mapping rate).get h) echo)
      else .configurationError) ∧
  (∀ (checked : AdapterCodes → Bool) (codes : AdapterCodes) (echo : Echo) (f : CanFrame) (s : State) (n : Nat),
    checked codes = true → f.type ≠ 0b10 → f.type ≠ 0b11 → f.dlc.toNat ≤ 8 →
    s.stim = openScript Config.settleEdges codes echo ++ sendStimulus f ++ closeStimulus →
    keepsDuties ⟨checked, Config.settleEdges⟩ { link := echo.linkBytes } (drivenInputs n s) s = true) ∧
  (∀ (n : Nat) (s : State), s.stim = closeStimulus →
    drivenInputs n s = List.replicate n {} ∧
    Host.Core.run Sys2Proof.core n s = .next
      (if n = 0 then s
      else { s with rxEvt := .none, rxfValid := false, txReject := false, edges := s.edges + n }))

/-! ### The encoders -/

/-- R111 and R10: the checksum byte is the sum of the 17 bytes 2..18 modulo 256, which is `speed + ftype + mode + 0x13`;
the sum over any buffer is that of the naturals its 17 cells hold, modulo 256. -/
def Obligations.ConfigChecksumFormula : Prop :=
  (∀ speed ftype mode : Byte,
    ((encodeConfig speed ftype mode).getD 19 0).toNat =
      (((encodeConfig speed ftype mode).drop 2).take 17 |>.map BitVec.toNat).sum % 256 ∧
    (encodeConfig speed ftype mode).getD 19 0 = speed + ftype + mode + 0x13) ∧
  (∀ cell : Nat → Byte,
    (sum8 cell 2 18).toNat = ((List.range 17).map fun k => (cell (2 + k)).toNat).sum % 256)

/-- R121 and R84: the descriptor built in the source's order is the descriptor bit by bit. -/
def Obligations.DescriptorFormula : Prop :=
  ∀ (type : BitVec 2) (dlc : BitVec 4),
    descriptor type dlc = 0xC0 ||| (if type = 0b01 then 0x20 else 0x00) ||| dlc.setWidth 8 ∧
    descriptor type dlc = descriptorBits (type == 0b01) dlc

/-- R122: of an identifier only bits 15:0 reach the wire, little-endian, for both types. -/
def Obligations.IdentifierIsTruncated : Prop :=
  ∀ (id id' : BitVec 32) (type : BitVec 2) (dlc : BitVec 4) (data : BitVec 64),
    (encodeFrame id type dlc data).getD 2 0 = id.extractLsb' 0 8 ∧
    (encodeFrame id type dlc data).getD 3 0 = id.extractLsb' 8 8 ∧
    (encodeFrame id type dlc data = encodeFrame id' type dlc data ↔ id.setWidth 16 = id'.setWidth 16)

/-! ### Laws over runs of bytes -/

/-- R114: every configuration command, fed to the demultiplexer from Searching, is consumed with no frame. -/
def Obligations.CommandEchoLaw : Prop :=
  ∀ (recon : IdRecon) (speed ftype mode : Byte) (s : State), s.sync = false →
    consumeEvents recon (encodeConfig speed ftype mode) s = .sync :: (List.replicate 18 .accum ++ [.cfgOk]) ∧
    ∃ t, consume recon (encodeConfig speed ftype mode) s = .next t ∧ t.sync = false ∧ t.cur = 0 ∧ t.rxfValid = false ∧
      s.SameFrameFields t

/-- R125: the loopback of a Standard frame. With `1 ≤ dlc ≤ 8` one frame is emitted at offset `dlc + 4`, its identifier by
`ID_RECON`, which at the default (R176) gives the low 16 bits of the one sent; the bytes after it are scanned in Searching; with `dlc = 0` the candidate is dropped. -/
def Obligations.StandardLoopbackLaw : Prop :=
  (∀ (recon : IdRecon) (id : BitVec 32) (dlc : BitVec 4) (data : BitVec 64) (s : State), s.sync = false → 1 ≤ dlc.toNat → dlc.toNat ≤ 8 →
    consumeEvents recon ((encodeFrame id 0b00 dlc data).take (dlc.toNat + 5)) s =
      .sync :: (List.replicate (dlc.toNat + 3) .accum ++ [.frame]) ∧
    ∃ t, consume recon ((encodeFrame id 0b00 dlc data).take (dlc.toNat + 5)) s = .next t ∧
      t.rxfValid = true ∧ t.rxfId = (recon (id.extractLsb' 0 8) (id.extractLsb' 8 8)).setWidth 32 ∧
      (recon = idRecon → t.rxfId = (id.setWidth 16).setWidth 32) ∧ t.rxfType = 0b00 ∧ t.rxfDlc = dlc ∧
      (∀ k, k < 8 → dataByte t.rxfData k = if k < dlc.toNat then dataByte data k else 0x00) ∧
      t.sync = false ∧ t.cur = 0 ∧ t.Scans recon ((encodeFrame id 0b00 dlc data).drop (dlc.toNat + 5))) ∧
  (∀ (recon : IdRecon) (id : BitVec 32) (data : BitVec 64) (s : State), s.sync = false →
    consumeEvents recon ((encodeFrame id 0b00 0 data).take 5) s = [.sync, .accum, .accum, .accum, .dropShape] ∧
    ∃ t, consume recon ((encodeFrame id 0b00 0 data).take 5) s = .next t ∧ t.sync = false ∧ t.rxfValid = false ∧
      t.Scans recon ((encodeFrame id 0b00 0 data).drop 5))

/-- R126: an Extended packet is not received: its candidate is dropped at byte 1 and the other eleven bytes are scanned in
Searching. -/
def Obligations.ExtendedLoopbackLaw : Prop :=
  ∀ (recon : IdRecon) (id : BitVec 32) (dlc : BitVec 4) (data : BitVec 64) (s : State), s.sync = false →
    (encodeFrame id 0b01 dlc data).getD 1 0 = (0xE#4 ++ dlc) ∧
    consumeEvents recon ((encodeFrame id 0b01 dlc data).take 2) s = [.sync, .dropShape] ∧
    ∃ t, consume recon ((encodeFrame id 0b01 dlc data).take 2) s = .next t ∧ t.sync = false ∧ t.cur = 0 ∧
      t.rxfValid = false ∧ s.SameFrameFields t ∧ ((encodeFrame id 0b01 dlc data).drop 2).length = 11 ∧
      t.Scans recon ((encodeFrame id 0b01 dlc data).drop 2)

/-! ### The edge and the step -/

/-- R250: the rows an edge decodes and runs have the effect of the pseudocode of `Edge`: `Reset`, or `RxEdge` (R179, R171)
and `TxEdge` (R154), in every state and for every `ID_RECON` (R6), of which `edge` and `step` take the default (log 7). In states that R25 or R149 excludes the pseudocode is completed by the model's choices,
on both sides alike: the fault of an append at cell 100 or above (log 5), an index of 31 that wraps (log 6), the row that
names a drop and the event `SYNC` of a candidate at cursor 0 (log 13). -/
def Obligations.EdgeRefinesThePseudocode : Prop :=
  (∀ (recon : IdRecon) (i : Inputs) (s : State),
    edgeWith recon i s =
      if i.rst then .next s.resetBlock else andThen (rxEdge recon i s) fun t => .next (txEdge i t)) ∧
  (∀ (i : Inputs) (s : State), edge i s = edgeWith idRecon i s) ∧
  (∀ s : State, step s = stepWith idRecon s)

/-- R80: at one edge with `rst = 0` exactly one receive row and one transmit row apply, and they are the rows the edge
runs; with `rst = 1` only `RST` applies on either side. -/
def Obligations.ExactlyOneRowApplies : Prop :=
  (∀ (sel : BitVec 11) (c : Completion) (i : Instr), rxApplies sel c i = true ↔ i = decodeRxSel sel c) ∧
  (∀ (sel : BitVec 7) (o : TxOperands) (i : Instr), txApplies sel o i = true ↔ i = decodeTxSel sel o) ∧
  (∀ (i : Inputs) (s : State), (i.rst = true ↔ rxRow i s = .rst) ∧ (i.rst = true ↔ txRow i s = .rst))

/-- R96: the event after an edge is the one of the operation that ran, and the codes are those of the table. -/
def Obligations.EventNamesTheOperation : Prop :=
  (∀ (i : Inputs) (s t : State), s.Inv → edge i s = .next t → eventOf (rxRow i s) = some t.rxEvt) ∧
  (∀ (i : Inputs) (s : State), (outputs i s).rxEvt = s.rxEvt.code) ∧
  [Event.none, .skip, .sync, .accum, .frame, .cfgOk, .dropCksum, .dropShape].map Event.code = [0, 1, 2, 3, 4, 5, 6, 7]

/-- R192, R221: whatever is consumed, a receive call gets a frame after `RX.FRAME` and none after anything else. -/
def Obligations.OnlyFramesAreReceived : Prop :=
  ∀ (i : Inputs) (s t : State), edge i s = .next t → ((received t).isSome = true ↔ ∃ b, rxRow i s = .rxFrame b)

/-- R27, R70: without reset the frame registers change only at an edge that emits a frame. -/
def Obligations.FrameRegistersHold : Prop :=
  ∀ (i : Inputs) (s t : State), i.rst = false → edge i s = .next t → t.rxfValid = false → s.SameFrameFields t

/-- A step is the edge of the decoded rows on the state with the script moved on by one edge (log 2); the rows are decoded
from the registers and ports before the edge, and they are well-formed. -/
def Obligations.StepRunsTheDecodedRows : Prop :=
  ∀ s : State,
    s.fetched = { s with stim := s.fetched.stim, edges := s.edges + 1 } ∧
    decode (.rxSel (rxSelector s.nextInputs s) (completionAfter s.nextInputs.rxByte s)) =
      .ok (rxRow s.nextInputs s) ∧
    decode (.txSel (txSelector s.nextInputs s) (txOperands s.nextInputs)) = .ok (txRow s.nextInputs s) ∧
    (rxRow s.nextInputs s).wf = true ∧ (txRow s.nextInputs s).wf = true ∧
    (s.nextInputs.rst = true → step s = exec .rst s.fetched) ∧
    (s.nextInputs.rst = false →
      step s = andThen (exec (rxRow s.nextInputs s) s.fetched) (exec (txRow s.nextInputs s)))

/-- R25, R149, R190, R42 and the canonical form of the buffer: every step from a legal state leaves a legal state. -/
def Obligations.StepKeepsTheInvariants : Prop :=
  ∀ s t : State, s.Inv → step s = .next t → t.Inv

/-- R191, R220: from every legal state, with whatever inputs, a step answers a next state: no fault, no refusal. -/
def Obligations.LegalStateNeverStops : Prop :=
  ∀ s : State, s.Inv → ∃ t, step s = .next t

/-- R24, R28, R62, R150: buffer cells at or above the cursor and packet bytes that are not being sent are never seen: two
states that differ only there show the same outputs and step to two such states. -/
def Obligations.UnobservableBytesStayUnobservable : Prop :=
  ∀ s t : State, s.TxInv → s.SameVisible t →
    (∀ i, outputs i s = outputs i t) ∧ outcomesAgree State.SameVisible (step s) (step t)

/-- R73: neither side depends on the other's registers or inputs. -/
def Obligations.SidesAreIndependent : Prop :=
  ∀ (i j : Inputs) (s u t v : State), edge i s = .next t → edge j u = .next v →
    (i.SameTransmit j → s.SameTransmit u → t.SameTransmit v) ∧
    (i.SameReceive j → s.SameReceive u → t.SameReceive v)

/-- R97: what the statements of the script drive at the next edge, and when they give way: at once where they make no more
edges, the requests at the edge that accepts them, the model's own `closed` never (log 2). -/
def Obligations.ScriptDrivesThePorts : Prop :=
  ∀ (s : State) (rest : List Stimulus),
    (∀ b bs, s.stim = .rx (b :: bs) :: rest →
      s.nextInputs = { rxValid := true, rxByte := b, txReady := true } ∧ s.fetched.stim = .rx bs :: rest) ∧
    (∀ n, s.stim = .idle (n + 1) :: rest → s.nextInputs = { txReady := true } ∧ s.fetched.stim = .idle n :: rest) ∧
    (∀ n, s.stim = .stall (n + 1) :: rest → s.nextInputs = {} ∧ s.fetched.stim = .stall n :: rest) ∧
    (∀ sp ft md, s.stim = .cfg sp ft md :: rest →
      s.nextInputs = { cfgValid := true, cfgSpeed := sp, cfgFtype := ft, cfgMode := md, txReady := true } ∧
      s.fetched.stim = if cfgAccepted s.nextInputs s then rest else s.stim) ∧
    (∀ id ty dlc d, s.stim = .txf id ty dlc d :: rest →
      s.nextInputs =
        { txfValid := true, txfId := id, txfType := ty, txfDlc := dlc, txfData := d, txReady := true } ∧
      s.fetched.stim = if txfAccepted s.nextInputs s then rest else s.stim) ∧
    (s.stim = .waitTx :: rest → s.txBusy = true → s.nextInputs = { txReady := true } ∧ s.fetched.stim = s.stim) ∧
    (s.stim = .rst :: rest → s.nextInputs = { rst := true, txReady := true } ∧ s.fetched.stim = rest) ∧
    (∀ i, s.stim = .edge i :: rest → s.nextInputs = i ∧ s.fetched.stim = rest) ∧
    (s.stim = .closed :: rest → s.nextInputs = {} ∧ s.fetched.stim = s.stim) ∧
    (s.stim = .rx [] :: rest ∨ s.stim = .idle 0 :: rest ∨ s.stim = .stall 0 :: rest ∨
        s.stim = .waitTx :: rest ∧ s.txBusy = false →
      s.nextInputs = ({ s with stim := rest } : State).nextInputs ∧
      s.fetched.stim = ({ s with stim := rest } : State).fetched.stim)

/-- R72, R97: a run of bytes presented by an `rx` statement, stepped through edge by edge, has on the receive registers the
effect of the bytes consumed one after the other. -/
def Obligations.PresentedBytesAreConsumedInOrder : Prop :=
  ∀ (bs : List Byte) (rest : List Stimulus) (s u : State), s.stim = .rx bs :: rest → consume idRecon bs s = .next u →
    ∃ t, Host.Core.run Sys2Proof.core bs.length s = .next t ∧ u.SameReceive t ∧ t.stim = .rx [] :: rest ∧
      t.edges = s.edges + bs.length

/-! ### Encodings -/

/-- The decoder reads back every well-formed row from its encoding, with every operand at every value. -/
def Obligations.DecodeOfEncode : Prop :=
  ∀ i : Instr, i.wf = true → decode (encode i) = .ok i

/-- The other direction, where each sample has one meaning: packet bytes and header bytes that decode are exactly the
encoding of a well-formed row. -/
def Obligations.EncodeOfDecode : Prop :=
  (∀ (b : Byte) (i : Instr), decode (.hdr b) = .ok i → i.wf = true ∧ encode i = .hdr b) ∧
  (∀ (bs : List Byte) (i : Instr), decode (.cfgBytes bs) = .ok i → i.wf = true ∧ encode i = .cfgBytes bs) ∧
  (∀ (bs : List Byte) (i : Instr), decode (.outBytes bs) = .ok i → i.wf = true ∧ encode i = .outBytes bs) ∧
  (∀ (bs : List Byte) (i : Instr), decode (.inBytes bs) = .ok i → i.wf = true ∧ encode i = .inBytes bs)

/-- A few words written out from the table and from the worked examples (V1, V2, V15) decode to what they stand for. -/
def Obligations.SpecWordsDecode : Prop :=
  decode (.rxSel 0b01010101010 .incomplete) = .ok .rxSync ∧
  decode (.rxSel 0b01101010101 .frame) = .ok (.rxFrame 0x55) ∧
  decode (.txSel 0b0001000 { cfgSpeed := 0x01, cfgFtype := 0x01, cfgMode := 0x00 }) =
    .ok (.txCfg 0x01 0x01 0x00) ∧
  decode (.hdr 0b11001000) = .ok (.hdrData 8) ∧
  decode (.cfgBytes [0xAA, 0x55, 0x12, 0x01, 0x01, 0, 0, 0, 0, 0, 0, 0, 0, 0x00, 0x01, 0, 0, 0, 0, 0x15]) =
    .ok (.pktCfg 0x01 0x01 0x00 0x15) ∧
  decode (.outBytes [0xAA, 0xC8, 0x02, 0x01, 0x01, 0x02, 0x03, 0x04, 0x05, 0x06, 0x07, 0x08, 0x55]) =
    .ok (.pktFrame false 8 0x02 0x01 0x0807060504030201) ∧
  decode (.inBytes [0xAA, 0xC1, 0x34, 0x12, 0x5A, 0x55]) = .ok (.pktFrameIn 1 0x34 0x12 [0x5A] 0x55)
end

