-- ==== Sys2Proof/Laws/Bytes.lean ====
section
/-! SUPPORT. The 64-bit payload port as eight bytes (R66): packing and unpacking undo each other. -/

namespace Sys2Proof

/-- Byte `k` of a packed port is the byte put there. -/
theorem dataByte_packData (b0 b1 b2 b3 b4 b5 b6 b7 : Byte) :
    dataByte (packData b0 b1 b2 b3 b4 b5 b6 b7) 0 = b0 ∧ dataByte (packData b0 b1 b2 b3 b4 b5 b6 b7) 1 = b1 ∧
    dataByte (packData b0 b1 b2 b3 b4 b5 b6 b7) 2 = b2 ∧ dataByte (packData b0 b1 b2 b3 b4 b5 b6 b7) 3 = b3 ∧
    dataByte (packData b0 b1 b2 b3 b4 b5 b6 b7) 4 = b4 ∧ dataByte (packData b0 b1 b2 b3 b4 b5 b6 b7) 5 = b5 ∧
    dataByte (packData b0 b1 b2 b3 b4 b5 b6 b7) 6 = b6 ∧ dataByte (packData b0 b1 b2 b3 b4 b5 b6 b7) 7 = b7 := by
  refine ⟨?_, ?_, ?_, ?_, ?_, ?_, ?_, ?_⟩ <;>
  · refine BitVec.eq_of_getLsbD_eq fun k hk => ?_
    interval_cases k <;> simp [dataByte, packData]

/-- A port packed from its own bytes is the port. -/
theorem packData_dataByte (d : BitVec 64) :
    packData (dataByte d 0) (dataByte d 1) (dataByte d 2) (dataByte d 3) (dataByte d 4) (dataByte d 5) (dataByte d 6)
      (dataByte d 7) = d := by
  refine BitVec.eq_of_getLsbD_eq fun k hk => ?_
  interval_cases k <;> simp [dataByte, packData]

end Sys2Proof
end

