-- ==== Sys2Proof/Laws/Memory.lean ====
section
/-! SUPPORT. The laws of the reassembly buffer: a read after a write, for every buffer, and the canonical form, which
every write keeps. -/

namespace Sys2Proof.Machine

theorem Memory.read_erase_same (m : Memory) (a : Nat) : Memory.read (Memory.erase m a) a = unlistedByte := by
  induction m with
  | nil => rfl
  | cons c m ih =>
    obtain ⟨b, w⟩ := c
    by_cases h : b = a
    · simpa [Memory.erase, h] using ih
    · simpa [Memory.erase, Memory.read, h] using ih

theorem Memory.read_erase_ne (m : Memory) {a k : Nat} (h : k ≠ a) :
    Memory.read (Memory.erase m a) k = Memory.read m k := by
  induction m with
  | nil => rfl
  | cons c m ih =>
    obtain ⟨b, w⟩ := c
    by_cases hb : b = a
    · have : ¬ b = k := fun e => h (e ▸ hb)
      simpa [Memory.erase, Memory.read, hb, this, Ne.symm h] using ih
    · by_cases hk : b = k
      · simp [Memory.erase, Memory.read, hk, h]
      · simpa [Memory.erase, Memory.read, hb, hk] using ih

/-- Every entry of the buffer is at an index other than `a`. -/
theorem Memory.ne_of_mem_erase (m : Memory) (a : Nat) : ∀ c ∈ Memory.erase m a, c.1 ≠ a := by
  induction m with
  | nil => simp [Memory.erase]
  | cons c m ih =>
    obtain ⟨b, w⟩ := c
    by_cases hb : b = a
    · simpa [Memory.erase, hb] using ih
    · simpa [Memory.erase, hb] using ih

theorem Memory.read_insert_same (m : Memory) (a : Nat) (v : Byte) (h : ∀ c ∈ m, c.1 ≠ a) :
    Memory.read (Memory.insert m a v) a = v := by
  induction m with
  | nil => simp [Memory.insert, Memory.read]
  | cons c m ih =>
    obtain ⟨b, w⟩ := c
    have hb : b ≠ a := h (b, w) (by simp)
    by_cases hl : a < b
    · simp [Memory.insert, Memory.read, hl]
    · simpa [Memory.insert, Memory.read, hl, hb] using ih fun c hc => h c (by simp [hc])

theorem Memory.read_insert_ne (m : Memory) {a k : Nat} (v : Byte) (h : k ≠ a) :
    Memory.read (Memory.insert m a v) k = Memory.read m k := by
  induction m with
  | nil => simp [Memory.insert, Memory.read, Ne.symm h]
  | cons c m ih =>
    obtain ⟨b, w⟩ := c
    by_cases hl : a < b
    · simp [Memory.insert, Memory.read, hl, Ne.symm h]
    · by_cases hk : b = k
      · subst hk
        simp [Memory.insert, Memory.read, hl]
      · simpa [Memory.insert, Memory.read, hl, hk] using ih

/-- A cell read after it is written holds what was written. -/
@[simp] theorem Memory.read_write_same (m : Memory) (a : Nat) (v : Byte) :
    Memory.read (Memory.write m a v) a = v := by
  unfold Memory.write
  split
  · next h => rw [Memory.read_erase_same, h]
  · exact Memory.read_insert_same _ _ _ (Memory.ne_of_mem_erase m a)

/-- A write leaves every other cell alone. -/
theorem Memory.read_write_ne (m : Memory) {a k : Nat} (v : Byte) (h : k ≠ a) :
    Memory.read (Memory.write m a v) k = Memory.read m k := by
  unfold Memory.write
  split
  · exact Memory.read_erase_ne m h
  · rw [Memory.read_insert_ne _ v h, Memory.read_erase_ne m h]

/-- Both laws in one. -/
theorem Memory.read_write (m : Memory) (a k : Nat) (v : Byte) :
    Memory.read (Memory.write m a v) k = if k = a then v else Memory.read m k := by
  split
  · next h => rw [h, Memory.read_write_same]
  · next h => exact Memory.read_write_ne m v h

/-! ### The canonical form -/

theorem Memory.above_iff (a : Nat) (m : Memory) : Memory.above a m = true ↔ ∀ c ∈ m, a < c.1 := by
  simp [Memory.above]

theorem Memory.mem_erase (m : Memory) (a : Nat) : ∀ c ∈ Memory.erase m a, c ∈ m := by
  induction m with
  | nil => simp [Memory.erase]
  | cons c m ih =>
    obtain ⟨b, w⟩ := c
    intro c hc
    by_cases hb : b = a
    · simp only [Memory.erase, hb, if_true] at hc
      exact List.mem_cons_of_mem _ (ih c hc)
    · simp only [Memory.erase, hb, if_false, List.mem_cons] at hc
      rcases hc with rfl | hc
      · exact List.mem_cons_self
      · exact List.mem_cons_of_mem _ (ih c hc)

theorem Memory.mem_insert (m : Memory) (a : Nat) (v : Byte) :
    ∀ c ∈ Memory.insert m a v, c = (a, v) ∨ c ∈ m := by
  induction m with
  | nil => simp [Memory.insert]
  | cons c m ih =>
    obtain ⟨b, w⟩ := c
    intro c hc
    by_cases hl : a < b
    · simpa [Memory.insert, hl] using hc
    · simp only [Memory.insert, hl, if_false, List.mem_cons] at hc
      rcases hc with rfl | hc
      · exact .inr List.mem_cons_self
      · exact (ih c hc).imp id (List.mem_cons_of_mem _)

/-- What a write can list: the cell written, or what was listed. -/
theorem Memory.mem_write (m : Memory) (a : Nat) (v : Byte) :
    ∀ c ∈ Memory.write m a v, c = (a, v) ∨ c ∈ m := by
  intro c hc
  unfold Memory.write at hc
  split at hc
  · exact .inr (Memory.mem_erase m a c hc)
  · exact (Memory.mem_insert _ a v c hc).imp id (Memory.mem_erase m a c)

theorem Memory.wf_cons (a : Nat) (v : Byte) (m : Memory) :
    Memory.wf ((a, v) :: m) = true ↔
      Memory.above a m = true ∧ a < Config.bufDepth ∧ v ≠ unlistedByte ∧ Memory.wf m = true := by
  simp [Memory.wf, and_assoc]

theorem Memory.wf_erase (m : Memory) (a : Nat) (h : Memory.wf m = true) : Memory.wf (Memory.erase m a) = true := by
  induction m with
  | nil => rfl
  | cons c m ih =>
    obtain ⟨b, w⟩ := c
    obtain ⟨h1, h2, h3, h4⟩ := (Memory.wf_cons b w m).1 h
    by_cases hb : b = a
    · simpa [Memory.erase, hb] using ih h4
    · simp only [Memory.erase, hb, if_false]
      refine (Memory.wf_cons _ _ _).2 ⟨?_, h2, h3, ih h4⟩
      exact (Memory.above_iff b _).2 fun c hc => (Memory.above_iff b m).1 h1 c (Memory.mem_erase m a c hc)

theorem Memory.wf_insert (m : Memory) (a : Nat) (v : Byte) (h : Memory.wf m = true) (ha : a < Config.bufDepth)
    (hv : v ≠ unlistedByte) (hn : ∀ c ∈ m, c.1 ≠ a) : Memory.wf (Memory.insert m a v) = true := by
  induction m with
  | nil => simp [Memory.insert, Memory.wf, Memory.above, ha, hv]
  | cons c m ih =>
    obtain ⟨b, w⟩ := c
    obtain ⟨h1, h2, h3, h4⟩ := (Memory.wf_cons b w m).1 h
    by_cases hl : a < b
    · simp only [Memory.insert, hl, if_true]
      refine (Memory.wf_cons _ _ _).2 ⟨?_, ha, hv, h⟩
      refine (Memory.above_iff a _).2 fun c hc => ?_
      rcases List.mem_cons.1 hc with rfl | hc
      · exact hl
      · exact Nat.lt_trans hl ((Memory.above_iff b m).1 h1 c hc)
    · have hb : b < a := by
        have : b ≠ a := hn (b, w) (by simp)
        omega
      simp only [Memory.insert, hl, if_false]
      refine (Memory.wf_cons _ _ _).2 ⟨?_, h2, h3, ih h4 fun c hc => hn c (List.mem_cons_of_mem _ hc)⟩
      refine (Memory.above_iff b _).2 fun c hc => ?_
      rcases Memory.mem_insert m a v c hc with rfl | hc
      · exact hb
      · exact (Memory.above_iff b m).1 h1 c hc

/-- A write to a cell that exists keeps the canonical form. -/
theorem Memory.wf_write (m : Memory) (a : Nat) (v : Byte) (h : Memory.wf m = true) (ha : a < Config.bufDepth) :
    Memory.wf (Memory.write m a v) = true := by
  unfold Memory.write
  split
  · exact Memory.wf_erase m a h
  · next hv => exact Memory.wf_insert _ a v (Memory.wf_erase m a h) ha hv (Memory.ne_of_mem_erase m a)

/-- A write to one of the first `n` cells lists none beyond them. -/
theorem Memory.all_lt_write (m : Memory) (a n : Nat) (v : Byte) (h : m.all (fun c => decide (c.1 < n)) = true)
    (ha : a < n) : (Memory.write m a v).all (fun c => decide (c.1 < n)) = true := by
  simp only [List.all_eq_true, decide_eq_true_eq] at h ⊢
  intro c hc
  rcases Memory.mem_write m a v c hc with rfl | hc
  · exact ha
  · exact h c hc

/-- The buffer after reset is in its canonical form. -/
theorem reset_buf_wf : Memory.wf State.reset.buf = true := by decide

/-- Two buffers in the canonical form that read alike everywhere are equal data. -/
theorem Memory.ext_of_wf (m n : Memory) (hm : Memory.wf m = true) (hn : Memory.wf n = true)
    (h : ∀ k, Memory.read m k = Memory.read n k) : m = n := by
  have low : ∀ (l : Memory) (k : Nat), (∀ c ∈ l, k < c.1) → Memory.read l k = unlistedByte := by
    intro l k hl
    induction l with
    | nil => rfl
    | cons c l ih =>
      obtain ⟨b, w⟩ := c
      have hb : b ≠ k := Nat.ne_of_gt (hl (b, w) (by simp))
      simpa [Memory.read, hb] using ih fun c hc => hl c (List.mem_cons_of_mem _ hc)
  induction m generalizing n with
  | nil =>
    cases n with
    | nil => rfl
    | cons c n =>
      obtain ⟨b, w⟩ := c
      have := h b
      simp [Memory.read] at this
      exact absurd this.symm ((Memory.wf_cons b w n).1 hn).2.2.1
  | cons c m ih =>
    obtain ⟨a, v⟩ := c
    obtain ⟨m1, -, m3, m4⟩ := (Memory.wf_cons a v m).1 hm
    cases n with
    | nil =>
      have := h a
      simp [Memory.read] at this
      exact absurd this m3
    | cons c n =>
      obtain ⟨b, w⟩ := c
      obtain ⟨n1, -, n3, n4⟩ := (Memory.wf_cons b w n).1 hn
      rw [Memory.above_iff] at m1 n1
      have hab : a = b := by
        rcases Nat.lt_trichotomy a b with hl | he | hl
        · have := h a
          rw [low ((b, w) :: n) a (List.forall_mem_cons.2 ⟨hl, fun c hc => Nat.lt_trans hl (n1 c hc)⟩)] at this
          simp [Memory.read] at this
          exact absurd this m3
        · exact he
        · have := h b
          rw [low ((a, v) :: m) b (List.forall_mem_cons.2 ⟨hl, fun c hc => Nat.lt_trans hl (m1 c hc)⟩)] at this
          simp [Memory.read] at this
          exact absurd this.symm n3
      subst hab
      have hv : v = w := by simpa [Memory.read] using h a
      subst hv
      refine congrArg ((a, v) :: ·) (ih n m4 n4 fun k => ?_)
      by_cases hk : a = k
      · subst hk
        rw [low m a m1, low n a n1]
      · simpa [Memory.read, hk] using h k

end Sys2Proof.Machine
end

