-- ==== Sys2Proof/Laws/State.lean ====
section
/-! SUPPORT. One lemma per field per update of the state, each true by unfolding the update once, so that no later proof
unfolds a record update. -/

namespace Sys2Proof.Machine

/-! ### `startCandidate` -/

@[simp] theorem State.startCandidate_sync (s : State) : (s.startCandidate).sync = true := rfl

@[simp] theorem State.startCandidate_cur (s : State) : (s.startCandidate).cur = 1 := rfl

@[simp] theorem State.startCandidate_buf (s : State) : (s.startCandidate).buf = Memory.write s.buf 0 marker := rfl

@[simp] theorem State.startCandidate_rxfValid (s : State) : (s.startCandidate).rxfValid = s.rxfValid := rfl

@[simp] theorem State.startCandidate_rxfId (s : State) : (s.startCandidate).rxfId = s.rxfId := rfl

@[simp] theorem State.startCandidate_rxfType (s : State) : (s.startCandidate).rxfType = s.rxfType := rfl

@[simp] theorem State.startCandidate_rxfDlc (s : State) : (s.startCandidate).rxfDlc = s.rxfDlc := rfl

@[simp] theorem State.startCandidate_rxfData (s : State) : (s.startCandidate).rxfData = s.rxfData := rfl

@[simp] theorem State.startCandidate_rxEvt (s : State) : (s.startCandidate).rxEvt = s.rxEvt := rfl

@[simp] theorem State.startCandidate_txBusy (s : State) : (s.startCandidate).txBusy = s.txBusy := rfl

@[simp] theorem State.startCandidate_txIdx (s : State) : (s.startCandidate).txIdx = s.txIdx := rfl

@[simp] theorem State.startCandidate_txLen (s : State) : (s.startCandidate).txLen = s.txLen := rfl

@[simp] theorem State.startCandidate_txPkt (s : State) : (s.startCandidate).txPkt = s.txPkt := rfl

@[simp] theorem State.startCandidate_txReject (s : State) : (s.startCandidate).txReject = s.txReject := rfl

@[simp] theorem State.startCandidate_stim (s : State) : (s.startCandidate).stim = s.stim := rfl

@[simp] theorem State.startCandidate_edges (s : State) : (s.startCandidate).edges = s.edges := rfl

/-! ### `storeByte` -/

@[simp] theorem State.storeByte_sync (s : State) (b : Byte) : (s.storeByte b).sync = s.sync := rfl

@[simp] theorem State.storeByte_cur (s : State) (b : Byte) : (s.storeByte b).cur = s.cur + 1 := rfl

@[simp] theorem State.storeByte_buf (s : State) (b : Byte) :
    (s.storeByte b).buf = Memory.write s.buf s.cur.toNat b := rfl

@[simp] theorem State.storeByte_rxfValid (s : State) (b : Byte) : (s.storeByte b).rxfValid = s.rxfValid := rfl

@[simp] theorem State.storeByte_rxfId (s : State) (b : Byte) : (s.storeByte b).rxfId = s.rxfId := rfl

@[simp] theorem State.storeByte_rxfType (s : State) (b : Byte) : (s.storeByte b).rxfType = s.rxfType := rfl

@[simp] theorem State.storeByte_rxfDlc (s : State) (b : Byte) : (s.storeByte b).rxfDlc = s.rxfDlc := rfl

@[simp] theorem State.storeByte_rxfData (s : State) (b : Byte) : (s.storeByte b).rxfData = s.rxfData := rfl

@[simp] theorem State.storeByte_rxEvt (s : State) (b : Byte) : (s.storeByte b).rxEvt = s.rxEvt := rfl

@[simp] theorem State.storeByte_txBusy (s : State) (b : Byte) : (s.storeByte b).txBusy = s.txBusy := rfl

@[simp] theorem State.storeByte_txIdx (s : State) (b : Byte) : (s.storeByte b).txIdx = s.txIdx := rfl

@[simp] theorem State.storeByte_txLen (s : State) (b : Byte) : (s.storeByte b).txLen = s.txLen := rfl

@[simp] theorem State.storeByte_txPkt (s : State) (b : Byte) : (s.storeByte b).txPkt = s.txPkt := rfl

@[simp] theorem State.storeByte_txReject (s : State) (b : Byte) : (s.storeByte b).txReject = s.txReject := rfl

@[simp] theorem State.storeByte_stim (s : State) (b : Byte) : (s.storeByte b).stim = s.stim := rfl

@[simp] theorem State.storeByte_edges (s : State) (b : Byte) : (s.storeByte b).edges = s.edges := rfl

/-! ### `toSearching` -/

@[simp] theorem State.toSearching_sync (s : State) : (s.toSearching).sync = false := rfl

@[simp] theorem State.toSearching_cur (s : State) : (s.toSearching).cur = 0 := rfl

@[simp] theorem State.toSearching_buf (s : State) : (s.toSearching).buf = s.buf := rfl

@[simp] theorem State.toSearching_rxfValid (s : State) : (s.toSearching).rxfValid = s.rxfValid := rfl

@[simp] theorem State.toSearching_rxfId (s : State) : (s.toSearching).rxfId = s.rxfId := rfl

@[simp] theorem State.toSearching_rxfType (s : State) : (s.toSearching).rxfType = s.rxfType := rfl

@[simp] theorem State.toSearching_rxfDlc (s : State) : (s.toSearching).rxfDlc = s.rxfDlc := rfl

@[simp] theorem State.toSearching_rxfData (s : State) : (s.toSearching).rxfData = s.rxfData := rfl

@[simp] theorem State.toSearching_rxEvt (s : State) : (s.toSearching).rxEvt = s.rxEvt := rfl

@[simp] theorem State.toSearching_txBusy (s : State) : (s.toSearching).txBusy = s.txBusy := rfl

@[simp] theorem State.toSearching_txIdx (s : State) : (s.toSearching).txIdx = s.txIdx := rfl

@[simp] theorem State.toSearching_txLen (s : State) : (s.toSearching).txLen = s.txLen := rfl

@[simp] theorem State.toSearching_txPkt (s : State) : (s.toSearching).txPkt = s.txPkt := rfl

@[simp] theorem State.toSearching_txReject (s : State) : (s.toSearching).txReject = s.txReject := rfl

@[simp] theorem State.toSearching_stim (s : State) : (s.toSearching).stim = s.stim := rfl

@[simp] theorem State.toSearching_edges (s : State) : (s.toSearching).edges = s.edges := rfl

/-! ### `report` -/

@[simp] theorem State.report_sync (s : State) (ev : Event) : (s.report ev).sync = s.sync := rfl

@[simp] theorem State.report_cur (s : State) (ev : Event) : (s.report ev).cur = s.cur := rfl

@[simp] theorem State.report_buf (s : State) (ev : Event) : (s.report ev).buf = s.buf := rfl

@[simp] theorem State.report_rxfValid (s : State) (ev : Event) : (s.report ev).rxfValid = false := rfl

@[simp] theorem State.report_rxfId (s : State) (ev : Event) : (s.report ev).rxfId = s.rxfId := rfl

@[simp] theorem State.report_rxfType (s : State) (ev : Event) : (s.report ev).rxfType = s.rxfType := rfl

@[simp] theorem State.report_rxfDlc (s : State) (ev : Event) : (s.report ev).rxfDlc = s.rxfDlc := rfl

@[simp] theorem State.report_rxfData (s : State) (ev : Event) : (s.report ev).rxfData = s.rxfData := rfl

@[simp] theorem State.report_rxEvt (s : State) (ev : Event) : (s.report ev).rxEvt = ev := rfl

@[simp] theorem State.report_txBusy (s : State) (ev : Event) : (s.report ev).txBusy = s.txBusy := rfl

@[simp] theorem State.report_txIdx (s : State) (ev : Event) : (s.report ev).txIdx = s.txIdx := rfl

@[simp] theorem State.report_txLen (s : State) (ev : Event) : (s.report ev).txLen = s.txLen := rfl

@[simp] theorem State.report_txPkt (s : State) (ev : Event) : (s.report ev).txPkt = s.txPkt := rfl

@[simp] theorem State.report_txReject (s : State) (ev : Event) : (s.report ev).txReject = s.txReject := rfl

@[simp] theorem State.report_stim (s : State) (ev : Event) : (s.report ev).stim = s.stim := rfl

@[simp] theorem State.report_edges (s : State) (ev : Event) : (s.report ev).edges = s.edges := rfl

/-! ### `emit` -/

@[simp] theorem State.emit_sync (s : State) (f : CanFrame) : (s.emit f).sync = s.sync := rfl

@[simp] theorem State.emit_cur (s : State) (f : CanFrame) : (s.emit f).cur = s.cur := rfl

@[simp] theorem State.emit_buf (s : State) (f : CanFrame) : (s.emit f).buf = s.buf := rfl

@[simp] theorem State.emit_rxfValid (s : State) (f : CanFrame) : (s.emit f).rxfValid = true := rfl

@[simp] theorem State.emit_rxfId (s : State) (f : CanFrame) : (s.emit f).rxfId = f.id := rfl

@[simp] theorem State.emit_rxfType (s : State) (f : CanFrame) : (s.emit f).rxfType = f.type := rfl

@[simp] theorem State.emit_rxfDlc (s : State) (f : CanFrame) : (s.emit f).rxfDlc = f.dlc := rfl

@[simp] theorem State.emit_rxfData (s : State) (f : CanFrame) : (s.emit f).rxfData = f.data := rfl

@[simp] theorem State.emit_rxEvt (s : State) (f : CanFrame) : (s.emit f).rxEvt = .frame := rfl

@[simp] theorem State.emit_txBusy (s : State) (f : CanFrame) : (s.emit f).txBusy = s.txBusy := rfl

@[simp] theorem State.emit_txIdx (s : State) (f : CanFrame) : (s.emit f).txIdx = s.txIdx := rfl

@[simp] theorem State.emit_txLen (s : State) (f : CanFrame) : (s.emit f).txLen = s.txLen := rfl

@[simp] theorem State.emit_txPkt (s : State) (f : CanFrame) : (s.emit f).txPkt = s.txPkt := rfl

@[simp] theorem State.emit_txReject (s : State) (f : CanFrame) : (s.emit f).txReject = s.txReject := rfl

@[simp] theorem State.emit_stim (s : State) (f : CanFrame) : (s.emit f).stim = s.stim := rfl

@[simp] theorem State.emit_edges (s : State) (f : CanFrame) : (s.emit f).edges = s.edges := rfl

/-! ### `loadPacket` -/

@[simp] theorem State.loadPacket_sync (s : State) (bytes : List Byte) : (s.loadPacket bytes).sync = s.sync := rfl

@[simp] theorem State.loadPacket_cur (s : State) (bytes : List Byte) : (s.loadPacket bytes).cur = s.cur := rfl

@[simp] theorem State.loadPacket_buf (s : State) (bytes : List Byte) : (s.loadPacket bytes).buf = s.buf := rfl

@[simp] theorem State.loadPacket_rxfValid (s : State) (bytes : List Byte) :
    (s.loadPacket bytes).rxfValid = s.rxfValid := rfl

@[simp] theorem State.loadPacket_rxfId (s : State) (bytes : List Byte) : (s.loadPacket bytes).rxfId = s.rxfId := rfl

@[simp] theorem State.loadPacket_rxfType (s : State) (bytes : List Byte) :
    (s.loadPacket bytes).rxfType = s.rxfType := rfl

@[simp] theorem State.loadPacket_rxfDlc (s : State) (bytes : List Byte) :
    (s.loadPacket bytes).rxfDlc = s.rxfDlc := rfl

@[simp] theorem State.loadPacket_rxfData (s : State) (bytes : List Byte) :
    (s.loadPacket bytes).rxfData = s.rxfData := rfl

@[simp] theorem State.loadPacket_rxEvt (s : State) (bytes : List Byte) : (s.loadPacket bytes).rxEvt = s.rxEvt := rfl

@[simp] theorem State.loadPacket_txBusy (s : State) (bytes : List Byte) : (s.loadPacket bytes).txBusy = true := rfl

@[simp] theorem State.loadPacket_txIdx (s : State) (bytes : List Byte) : (s.loadPacket bytes).txIdx = 0 := rfl

@[simp] theorem State.loadPacket_txLen (s : State) (bytes : List Byte) :
    (s.loadPacket bytes).txLen = BitVec.ofNat 5 bytes.length := rfl

@[simp] theorem State.loadPacket_txPkt (s : State) (bytes : List Byte) :
    (s.loadPacket bytes).txPkt = storePacket bytes s.txPkt := rfl

@[simp] theorem State.loadPacket_txReject (s : State) (bytes : List Byte) :
    (s.loadPacket bytes).txReject = s.txReject := rfl

@[simp] theorem State.loadPacket_stim (s : State) (bytes : List Byte) : (s.loadPacket bytes).stim = s.stim := rfl

@[simp] theorem State.loadPacket_edges (s : State) (bytes : List Byte) : (s.loadPacket bytes).edges = s.edges := rfl

/-! ### `advanceIndex` -/

@[simp] theorem State.advanceIndex_sync (s : State) : (s.advanceIndex).sync = s.sync := rfl

@[simp] theorem State.advanceIndex_cur (s : State) : (s.advanceIndex).cur = s.cur := rfl

@[simp] theorem State.advanceIndex_buf (s : State) : (s.advanceIndex).buf = s.buf := rfl

@[simp] theorem State.advanceIndex_rxfValid (s : State) : (s.advanceIndex).rxfValid = s.rxfValid := rfl

@[simp] theorem State.advanceIndex_rxfId (s : State) : (s.advanceIndex).rxfId = s.rxfId := rfl

@[simp] theorem State.advanceIndex_rxfType (s : State) : (s.advanceIndex).rxfType = s.rxfType := rfl

@[simp] theorem State.advanceIndex_rxfDlc (s : State) : (s.advanceIndex).rxfDlc = s.rxfDlc := rfl

@[simp] theorem State.advanceIndex_rxfData (s : State) : (s.advanceIndex).rxfData = s.rxfData := rfl

@[simp] theorem State.advanceIndex_rxEvt (s : State) : (s.advanceIndex).rxEvt = s.rxEvt := rfl

@[simp] theorem State.advanceIndex_txBusy (s : State) :
    (s.advanceIndex).txBusy = if s.txIdx.toNat + 1 = s.txLen.toNat then false else s.txBusy := rfl

@[simp] theorem State.advanceIndex_txIdx (s : State) :
    (s.advanceIndex).txIdx = if s.txIdx.toNat + 1 = s.txLen.toNat then 0 else s.txIdx + 1 := rfl

@[simp] theorem State.advanceIndex_txLen (s : State) : (s.advanceIndex).txLen = s.txLen := rfl

@[simp] theorem State.advanceIndex_txPkt (s : State) : (s.advanceIndex).txPkt = s.txPkt := rfl

@[simp] theorem State.advanceIndex_txReject (s : State) : (s.advanceIndex).txReject = s.txReject := rfl

@[simp] theorem State.advanceIndex_stim (s : State) : (s.advanceIndex).stim = s.stim := rfl

@[simp] theorem State.advanceIndex_edges (s : State) : (s.advanceIndex).edges = s.edges := rfl

/-! ### `setReject` -/

@[simp] theorem State.setReject_sync (s : State) (r : Bool) : (s.setReject r).sync = s.sync := rfl

@[simp] theorem State.setReject_cur (s : State) (r : Bool) : (s.setReject r).cur = s.cur := rfl

@[simp] theorem State.setReject_buf (s : State) (r : Bool) : (s.setReject r).buf = s.buf := rfl

@[simp] theorem State.setReject_rxfValid (s : State) (r : Bool) : (s.setReject r).rxfValid = s.rxfValid := rfl

@[simp] theorem State.setReject_rxfId (s : State) (r : Bool) : (s.setReject r).rxfId = s.rxfId := rfl

@[simp] theorem State.setReject_rxfType (s : State) (r : Bool) : (s.setReject r).rxfType = s.rxfType := rfl

@[simp] theorem State.setReject_rxfDlc (s : State) (r : Bool) : (s.setReject r).rxfDlc = s.rxfDlc := rfl

@[simp] theorem State.setReject_rxfData (s : State) (r : Bool) : (s.setReject r).rxfData = s.rxfData := rfl

@[simp] theorem State.setReject_rxEvt (s : State) (r : Bool) : (s.setReject r).rxEvt = s.rxEvt := rfl

@[simp] theorem State.setReject_txBusy (s : State) (r : Bool) : (s.setReject r).txBusy = s.txBusy := rfl

@[simp] theorem State.setReject_txIdx (s : State) (r : Bool) : (s.setReject r).txIdx = s.txIdx := rfl

@[simp] theorem State.setReject_txLen (s : State) (r : Bool) : (s.setReject r).txLen = s.txLen := rfl

@[simp] theorem State.setReject_txPkt (s : State) (r : Bool) : (s.setReject r).txPkt = s.txPkt := rfl

@[simp] theorem State.setReject_txReject (s : State) (r : Bool) : (s.setReject r).txReject = r := rfl

@[simp] theorem State.setReject_stim (s : State) (r : Bool) : (s.setReject r).stim = s.stim := rfl

@[simp] theorem State.setReject_edges (s : State) (r : Bool) : (s.setReject r).edges = s.edges := rfl

/-! ### `resetBlock` -/

@[simp] theorem State.resetBlock_sync (s : State) : (s.resetBlock).sync = false := rfl

@[simp] theorem State.resetBlock_cur (s : State) : (s.resetBlock).cur = 0 := rfl

@[simp] theorem State.resetBlock_buf (s : State) : (s.resetBlock).buf = s.buf := rfl

@[simp] theorem State.resetBlock_rxfValid (s : State) : (s.resetBlock).rxfValid = false := rfl

@[simp] theorem State.resetBlock_rxfId (s : State) : (s.resetBlock).rxfId = 0 := rfl

@[simp] theorem State.resetBlock_rxfType (s : State) : (s.resetBlock).rxfType = 0 := rfl

@[simp] theorem State.resetBlock_rxfDlc (s : State) : (s.resetBlock).rxfDlc = 0 := rfl

@[simp] theorem State.resetBlock_rxfData (s : State) : (s.resetBlock).rxfData = 0 := rfl

@[simp] theorem State.resetBlock_rxEvt (s : State) : (s.resetBlock).rxEvt = .none := rfl

@[simp] theorem State.resetBlock_txBusy (s : State) : (s.resetBlock).txBusy = false := rfl

@[simp] theorem State.resetBlock_txIdx (s : State) : (s.resetBlock).txIdx = 0 := rfl

@[simp] theorem State.resetBlock_txLen (s : State) : (s.resetBlock).txLen = 0 := rfl

@[simp] theorem State.resetBlock_txPkt (s : State) : (s.resetBlock).txPkt = s.txPkt := rfl

@[simp] theorem State.resetBlock_txReject (s : State) : (s.resetBlock).txReject = false := rfl

@[simp] theorem State.resetBlock_stim (s : State) : (s.resetBlock).stim = s.stim := rfl

@[simp] theorem State.resetBlock_edges (s : State) : (s.resetBlock).edges = s.edges := rfl

/-! ### `script` -/

@[simp] theorem State.script_sync (s : State) (rest : List Stimulus) : (s.script rest).sync = s.sync := rfl

@[simp] theorem State.script_cur (s : State) (rest : List Stimulus) : (s.script rest).cur = s.cur := rfl

@[simp] theorem State.script_buf (s : State) (rest : List Stimulus) : (s.script rest).buf = s.buf := rfl

@[simp] theorem State.script_rxfValid (s : State) (rest : List Stimulus) :
    (s.script rest).rxfValid = s.rxfValid := rfl

@[simp] theorem State.script_rxfId (s : State) (rest : List Stimulus) : (s.script rest).rxfId = s.rxfId := rfl

@[simp] theorem State.script_rxfType (s : State) (rest : List Stimulus) : (s.script rest).rxfType = s.rxfType := rfl

@[simp] theorem State.script_rxfDlc (s : State) (rest : List Stimulus) : (s.script rest).rxfDlc = s.rxfDlc := rfl

@[simp] theorem State.script_rxfData (s : State) (rest : List Stimulus) : (s.script rest).rxfData = s.rxfData := rfl

@[simp] theorem State.script_rxEvt (s : State) (rest : List Stimulus) : (s.script rest).rxEvt = s.rxEvt := rfl

@[simp] theorem State.script_txBusy (s : State) (rest : List Stimulus) : (s.script rest).txBusy = s.txBusy := rfl

@[simp] theorem State.script_txIdx (s : State) (rest : List Stimulus) : (s.script rest).txIdx = s.txIdx := rfl

@[simp] theorem State.script_txLen (s : State) (rest : List Stimulus) : (s.script rest).txLen = s.txLen := rfl

@[simp] theorem State.script_txPkt (s : State) (rest : List Stimulus) : (s.script rest).txPkt = s.txPkt := rfl

@[simp] theorem State.script_txReject (s : State) (rest : List Stimulus) :
    (s.script rest).txReject = s.txReject := rfl

@[simp] theorem State.script_stim (s : State) (rest : List Stimulus) : (s.script rest).stim = rest := rfl

@[simp] theorem State.script_edges (s : State) (rest : List Stimulus) : (s.script rest).edges = s.edges + 1 := rfl

end Sys2Proof.Machine
end

