-- ==== Sys2Proof/Laws/Ops.lean ====
section
/-! SUPPORT. What each shared operation can do, said once: the append and the three ways an edge ends one, the packet
register, the sequence of two outcomes. -/

namespace Sys2Proof.Machine

@[simp] theorem andThen_next {α β : Type} (a : α) (f : α → Host.Outcome β Fault Refusal) :
    andThen (.next a) f = f a := rfl

@[simp] theorem andThen_fault {α β : Type} (r : Fault) (f : α → Host.Outcome β Fault Refusal) :
    andThen (.fault r) f = .fault r := rfl

/-- A sequence goes on exactly if both parts do. -/
theorem andThen_eq_next {α β : Type} {o : Host.Outcome α Fault Refusal} {f : α → Host.Outcome β Fault Refusal}
    {t : β} : andThen o f = .next t ↔ ∃ u, o = .next u ∧ f u = .next t := by
  cases o <;> simp [andThen]

/-- An append goes on exactly at a cell that exists, and then stores the byte. -/
theorem storeAtCursor_eq_next {b : Byte} {s t : State} :
    storeAtCursor b s = .next t ↔ s.cur.toNat < Config.bufDepth ∧ t = s.storeByte b := by
  unfold storeAtCursor
  split <;> simp_all [eq_comm]

/-- An append below `BUF_DEPTH` stores the byte. -/
theorem storeAtCursor_of_lt {b : Byte} {s : State} (h : s.cur.toNat < Config.bufDepth) :
    storeAtCursor b s = .next (s.storeByte b) := storeAtCursor_eq_next.2 ⟨h, rfl⟩

/-- An append at `BUF_DEPTH` or above faults. -/
theorem storeAtCursor_of_ge {b : Byte} {s : State} (h : ¬ s.cur.toNat < Config.bufDepth) :
    storeAtCursor b s = .fault .bufferIndex := by simp [storeAtCursor, h]

/-- The cursor after an append counts one more; it does not wrap at a cell that exists. -/
theorem storeByte_cur_toNat {b : Byte} {s : State} (h : s.cur.toNat < Config.bufDepth) :
    (s.storeByte b).cur.toNat = s.cur.toNat + 1 := by
  have hd : Config.bufDepth = 100 := rfl
  have h1 : (1 : BitVec 7).toNat = 1 := rfl
  rw [State.storeByte_cur, BitVec.toNat_add, h1]
  omega

/-- The candidate after an append: the new byte in its cell, every other cell as it was. -/
theorem storeByte_read (b : Byte) (s : State) (k : Nat) :
    Memory.read (s.storeByte b).buf k = if k = s.cur.toNat then b else Memory.read s.buf k := by
  simp [Memory.read_write]

/-- What an append followed by an update can do. -/
theorem afterStore_eq_next {f : State → State} {b : Byte} {s t : State} :
    (andThen (storeAtCursor b s) fun u => .next (f u)) = .next t ↔
      s.cur.toNat < Config.bufDepth ∧ t = f (s.storeByte b) := by
  simp only [andThen_eq_next, storeAtCursor_eq_next, Host.Outcome.next.injEq]
  constructor
  · rintro ⟨u, ⟨h, rfl⟩, rfl⟩
    exact ⟨h, rfl⟩
  · rintro ⟨h, rfl⟩
    exact ⟨_, ⟨h, rfl⟩, rfl⟩

/-- What an append that ends a candidate without a frame can do. -/
theorem dropAfter_eq_next {ev : Event} {b : Byte} {s t : State} :
    dropAfter ev b s = .next t ↔
      s.cur.toNat < Config.bufDepth ∧ t = (s.storeByte b).toSearching.report ev :=
  afterStore_eq_next (f := fun u => u.toSearching.report ev)

/-- What an append to a candidate that stays incomplete can do. -/
theorem appendAfter_eq_next {b : Byte} {s t : State} :
    appendAfter b s = .next t ↔
      s.cur.toNat < Config.bufDepth ∧ t = (s.storeByte b).report (if (s.storeByte b).cur = 1 then .sync else .accum) :=
  afterStore_eq_next (f := fun u => u.report (if u.cur = 1 then .sync else .accum))

/-- What an append that completes a frame can do. -/
theorem emitAfter_eq_next {recon : IdRecon} {b : Byte} {s t : State} :
    emitAfter recon b s = .next t ↔
      s.cur.toNat < Config.bufDepth ∧
        t = (s.storeByte b).toSearching.emit
          (buildFrame recon (Memory.read (s.storeByte b).buf) (s.storeByte b).cur.toNat) :=
  afterStore_eq_next (f := fun u => u.toSearching.emit (buildFrame recon (Memory.read u.buf) u.cur.toNat))

/-- The packet register after a packet is stored, byte by byte. -/
theorem storePacket_get (bytes : List Byte) (old : Vector Byte 20) (k : Fin 20) :
    (storePacket bytes old)[k] = bytes.getD k.val old[k] := by
  simp [storePacket]

@[simp] theorem pktCfgBytes_length (s f m c : Byte) : (pktCfgBytes s f m c).length = 20 := rfl

@[simp] theorem outFrameBytes_length (desc i j : Byte) (d : BitVec 64) : (outFrameBytes desc i j d).length = 13 := rfl

@[simp] theorem encodeConfig_length (speed ftype mode : Byte) : (encodeConfig speed ftype mode).length = 20 := rfl

@[simp] theorem encodeFrame_length (id : BitVec 32) (type : BitVec 2) (dlc : BitVec 4) (data : BitVec 64) :
    (encodeFrame id type dlc data).length = 13 := rfl

/-- The candidate that is only a marker is incomplete, so steps 2 and 3 report `SYNC` (R174). -/
theorem demuxFinish_startCandidate (recon : IdRecon) (s : State) :
    (demuxFinish recon s.startCandidate).present = s.startCandidate.report .sync := rfl

/-- One byte consumed in Searching: the marker starts a candidate, any other byte is discarded. -/
theorem consumeByte_searching {recon : IdRecon} {b : Byte} {s : State} (h : s.sync = false) :
    consumeByte recon b s = .next (if b = marker then s.startCandidate.report .sync else s.report .skip) := by
  by_cases hb : b = marker
  · simp [consumeByte, demuxStore, h, hb, demuxFinish_startCandidate]
  · simp [consumeByte, DemuxResult.present, h, hb]

/-- One byte consumed in Accumulating: the append, then steps 2 and 3 of R171. -/
theorem consumeByte_accumulating {recon : IdRecon} {b : Byte} {s : State} (h : s.sync = true)
    (hc : s.cur.toNat < Config.bufDepth) :
    consumeByte recon b s = .next (demuxFinish recon (s.storeByte b)).present := by
  simp [consumeByte, demuxStore, h, storeAtCursor_of_lt hc]

/-- A run of bytes in two parts. -/
theorem consume_append (recon : IdRecon) (bs cs : List Byte) (s : State) :
    consume recon (bs ++ cs) s = andThen (consume recon bs s) (consume recon cs) := by
  induction bs generalizing s with
  | nil => rfl
  | cons b bs ih =>
    simp only [List.cons_append, consume]
    cases consumeByte recon b s <;> simp [andThen, ih]

end Sys2Proof.Machine
end

