-- ==== Sys2Proof/Laws/Duties.lean ====
section
/-! SUPPORT. What the functions over runs do at one edge, said once: runs of edges, what passes the ports along them, the
duties, the driven inputs, the receive calls. -/

namespace Sys2Proof.Machine

@[simp] theorem runEdges_nil (s : State) : runEdges [] s = .next s := rfl

/-- A run goes on exactly if its first edge and the rest do. -/
theorem runEdges_cons_eq_next {i : Inputs} {is : List Inputs} {s t : State} :
    runEdges (i :: is) s = .next t ↔ ∃ u, edge i s = .next u ∧ runEdges is u = .next t := andThen_eq_next

/-- A run in two parts. -/
theorem runEdges_append (is js : List Inputs) (s : State) :
    runEdges (is ++ js) s = andThen (runEdges is s) (runEdges js) := by
  induction is generalizing s with
  | nil => rfl
  | cons i is ih =>
    simp only [List.cons_append, runEdges]
    cases edge i s <;> simp [andThen, ih]

@[simp] theorem alongEdges_nil {α : Type} (f : Inputs → State → List α) (s : State) : alongEdges f [] s = [] := rfl

/-- What is seen along a run whose first edge goes on. -/
theorem alongEdges_cons {α : Type} (f : Inputs → State → List α) {i : Inputs} (is : List Inputs) {s u : State}
    (h : edge i s = .next u) : alongEdges f (i :: is) s = f i s ++ alongEdges f is u := by
  simp only [alongEdges, h]

/-- The duties of a run whose first edge goes on. -/
theorem keepsDuties_cons (h : HostParams) (m : HostMemory) {i : Inputs} (is : List Inputs) {s u : State}
    (hu : edge i s = .next u) :
    keepsDuties h m (i :: is) s = (edgeDuty h m i && keepsDuties h (m.after h i s) is u) := by
  simp only [keepsDuties, hu]

/-- The duties of one edge, one by one. -/
theorem edgeDuty_iff (h : HostParams) (m : HostMemory) (i : Inputs) :
    edgeDuty h m i = true ↔ resetDuty m i ∧ byteDuty m i ∧ cfgDuty h m i ∧ txfDuty m i := by
  simp only [edgeDuty, Bool.and_eq_true, decide_eq_true_eq, and_assoc]

/-- When the echo is drained: what is left of the link holds no byte of an accepted command's echo, and no part-presented
echo stands without a reset. -/
theorem echoDrained_iff (m : HostMemory) :
    m.echoDrained = true ↔
      (∀ b ∈ m.link, ∀ n, b.origin.command? = some n → m.commands ≤ n) ∧ m.partEcho = false := by
  simp only [HostMemory.echoDrained, Bool.and_eq_true, List.all_eq_true, Bool.not_eq_true']
  refine and_congr_left fun _ => forall₂_congr fun b _ => ?_
  cases b.origin.command? <;> simp

/-- The inputs of the steps to come where the first one goes on. -/
theorem drivenInputs_succ {s u : State} (n : Nat) (h : step s = .next u) :
    drivenInputs (n + 1) s = s.nextInputs :: drivenInputs n u := by
  simp only [drivenInputs, h]

/-- `closed` presents nothing, takes nothing and stays. -/
@[simp] theorem fetch_closed (busy : Bool) (rest : List Stimulus) :
    fetch busy (.closed :: rest) = some (closedInputs, .closed :: rest) := rfl

/-- No frame is on the ports exactly when `rxf_valid` is down. -/
theorem received_eq_none {s : State} : received s = none ↔ s.rxfValid = false := by
  unfold received
  cases s.rxfValid <;> simp

/-- The frame on the ports is that of the frame registers. -/
theorem received_eq_some {s : State} {f : CanFrame} :
    received s = some f ↔ s.rxfValid = true ∧ f = ⟨s.rxfId, s.rxfType, s.rxfDlc, s.rxfData⟩ := by
  unfold received
  cases s.rxfValid <;> simp [eq_comm]

/-- An idle serializer has nothing to send. -/
theorem pending_of_idle {s : State} (h : s.txBusy = false) : s.pending = [] := by simp [State.pending, h]

end Sys2Proof.Machine
end

