-- ==== Sys2Proof/Laws/Param.lean ====
section
/-! SUPPORT. At the default of `ID_RECON` the machine with the parameter is the machine of `exec`, `edge` and `step`. -/

namespace Sys2Proof.Machine

theorem execWith_default (i : Instr) (s : State) : execWith idRecon i s = exec i s := by cases i <;> rfl

theorem edgeWith_default (i : Inputs) (s : State) : edgeWith idRecon i s = edge i s := by
  simp only [edgeWith, edge, execWith_default, funext (execWith_default (txRow i s))]

theorem stepWith_default (s : State) : stepWith idRecon s = step s := edgeWith_default _ _

/-- A row that builds no frame has its meaning whatever the parameter is. -/
theorem execWith_eq_exec (recon : IdRecon) (i : Instr) (s : State) (h1 : ∀ b, i ≠ .rxFrame b)
    (h2 : ∀ l a b d t, i ≠ .pktFrameIn l a b d t) : execWith recon i s = exec i s := by
  cases i <;> first | rfl | exact absurd rfl (h1 _) | exact absurd rfl (h2 _ _ _ _ _)

end Sys2Proof.Machine
end

