-- ==== Sys2Proof/Laws/Select.lean ====
section
/-! SUPPORT. Which row an edge selects, in terms of the ports and the registers: the selectors taken apart once. -/

namespace Sys2Proof.Machine

/-- The four parts of an RXSEL word, read back from it. -/
theorem rxWord_bits (r v y : Bool) (b : Byte) :
    (BitVec.ofBool r ++ BitVec.ofBool v ++ BitVec.ofBool y ++ b : BitVec 11).getLsbD 10 = r ∧
    (BitVec.ofBool r ++ BitVec.ofBool v ++ BitVec.ofBool y ++ b : BitVec 11).getLsbD 9 = v ∧
    (BitVec.ofBool r ++ BitVec.ofBool v ++ BitVec.ofBool y ++ b : BitVec 11).getLsbD 8 = y ∧
    (BitVec.ofBool r ++ BitVec.ofBool v ++ BitVec.ofBool y ++ b : BitVec 11).extractLsb' 0 8 = b := by
  cases r <;> cases v <;> cases y <;> revert b <;> decide

theorem rxSelector_bits (i : Inputs) (s : State) :
    (rxSelector i s).getLsbD 10 = i.rst ∧ (rxSelector i s).getLsbD 9 = i.rxValid ∧
    (rxSelector i s).getLsbD 8 = s.sync ∧ (rxSelector i s).extractLsb' 0 8 = i.rxByte :=
  rxWord_bits _ _ _ _

/-- The receive row of an edge, by its ports (R80). -/
theorem rxRow_eq (i : Inputs) (s : State) :
    rxRow i s =
      if i.rst then .rst
      else if !i.rxValid then .rxIdle
      else if !s.sync then (if i.rxByte = marker then .rxSync else .rxSkip i.rxByte)
      else
        match completionAfter i.rxByte s with
        | .incomplete => .rxAccum i.rxByte
        | .cfgOk => .rxCfgOk i.rxByte
        | .cfgBad => .rxDropCksum i.rxByte
        | .frame => .rxFrame i.rxByte
        | .short => .rxDropShort i.rxByte
        | .header => .rxDropHdr i.rxByte := by
  obtain ⟨h1, h2, h3, h4⟩ := rxSelector_bits i s
  cases hc : completionAfter i.rxByte s <;> simp only [rxRow, decodeRxSel, h1, h2, h3, h4, hc]

/-- The parts of a TXSEL word, read back from it. -/
theorem txWord_bits (r u y c f : Bool) (ty : BitVec 2) :
    let w : BitVec 7 :=
      BitVec.ofBool r ++ BitVec.ofBool u ++ BitVec.ofBool y ++ BitVec.ofBool c ++ BitVec.ofBool f ++ ty
    w.getLsbD 6 = r ∧ w.getLsbD 5 = u ∧ w.getLsbD 4 = y ∧ w.getLsbD 3 = c ∧ w.getLsbD 2 = f ∧
      w.getLsbD 1 = ty.getLsbD 1 ∧ w.getLsbD 0 = ty.getLsbD 0 := by
  cases r <;> cases u <;> cases y <;> cases c <;> cases f <;> revert ty <;> decide

theorem txSelector_bits (i : Inputs) (s : State) :
    (txSelector i s).getLsbD 6 = i.rst ∧ (txSelector i s).getLsbD 5 = s.txBusy ∧
    (txSelector i s).getLsbD 4 = i.txReady ∧ (txSelector i s).getLsbD 3 = i.cfgValid ∧
    (txSelector i s).getLsbD 2 = i.txfValid ∧ (txSelector i s).getLsbD 1 = i.txfType.getLsbD 1 ∧
    (txSelector i s).getLsbD 0 = i.txfType.getLsbD 0 :=
  txWord_bits _ _ _ _ _ _

/-- The transmit row of an edge, by its ports (R80). -/
theorem txRow_eq (i : Inputs) (s : State) :
    txRow i s =
      if i.rst then .rst
      else if s.txBusy then (if i.txReady then .txXfer else .txWait)
      else if i.cfgValid then .txCfg i.cfgSpeed i.cfgFtype i.cfgMode
      else if i.txfValid then
        (if i.txfType.getLsbD 1 then .txReject (i.txfType.getLsbD 0)
        else if i.txfType.getLsbD 0 then .txFrameExt i.txfId i.txfDlc i.txfData
        else .txFrameStd i.txfId i.txfDlc i.txfData)
      else .txIdle := by
  obtain ⟨h1, h2, h3, h4, h5, h6, h7⟩ := txSelector_bits i s
  simp only [txRow, decodeTxSel, h1, h2, h3, h4, h5, h6, h7, txOperands]

end Sys2Proof.Machine

namespace Sys2Proof

/-- The selector of a byte consumed in Searching, as the encoder writes it. -/
theorem skipWord_bits (b : Byte) :
    (0b010#3 ++ b : BitVec 11).getLsbD 10 = false ∧ (0b010#3 ++ b : BitVec 11).getLsbD 9 = true ∧
    (0b010#3 ++ b : BitVec 11).getLsbD 8 = false ∧ (0b010#3 ++ b : BitVec 11).extractLsb' 0 8 = b := by
  revert b; decide

/-- The selector of a byte consumed in Accumulating, as the encoder writes it. -/
theorem accumWord_bits (b : Byte) :
    (0b011#3 ++ b : BitVec 11).getLsbD 10 = false ∧ (0b011#3 ++ b : BitVec 11).getLsbD 9 = true ∧
    (0b011#3 ++ b : BitVec 11).getLsbD 8 = true ∧ (0b011#3 ++ b : BitVec 11).extractLsb' 0 8 = b := by
  revert b; decide

/-- The two nibbles and bit 5 of a descriptor byte (R84). -/
theorem descriptorBits_fields (e : Bool) (l : BitVec 4) :
    hiNibble (descriptorBits e l) = (if e then 0xE else 0xC) ∧ loNibble (descriptorBits e l) = l ∧
    (descriptorBits e l).getLsbD 5 = e := by
  cases e <;> revert l <;> decide

/-- A byte is the concatenation of its nibbles. -/
theorem nibbles_append (b : Byte) : (hiNibble b ++ loNibble b : BitVec 8) = b := by
  revert b; decide

/-- A data-shaped byte is the Standard descriptor of its low nibble. -/
theorem descriptorBits_of_dataShaped (b : Byte) (h : hiNibble b = 0xC) : descriptorBits false (loNibble b) = b := by
  revert b; decide

/-- The two bytes that mark a configuration command and a data frame have different high nibbles (R86). -/
theorem hiNibble_tag : hiNibble tag ≠ 0xC := by decide

end Sys2Proof
end

