-- ==== Sys2Proof/Laws/PerInstr.lean ====
section
/-! SUPPORT. One family of facts per row: what the encoder writes for a well-formed row fits the "match" and "mask" the
table gives that row. -/

namespace Sys2Proof.Laws.TableRow

/-- The encoding of a well-formed row fits its row of `spec/opcode_table.json`. -/
def Statement (i : Instr) : Prop := i.wf = true → fitsRow i (encode i) = true

theorem rst : Statement .rst := fun _ => by decide

theorem rxIdle : Statement .rxIdle := fun _ => by decide

theorem rxSkip (b : Byte) : Statement (.rxSkip b) := fun _ => by revert b; decide

theorem rxSync : Statement .rxSync := fun _ => by decide

/-- The word of the six rows of Accumulating fits their common match and mask. -/
theorem accumWord_fits (b : Byte) : fitsWord (0b011#3 ++ b : BitVec 11) (some (0x300, 0x700)) = true := by
  revert b; decide

theorem rxAccum (b : Byte) : Statement (.rxAccum b) := fun _ => accumWord_fits b

theorem rxCfgOk (b : Byte) : Statement (.rxCfgOk b) := fun _ => accumWord_fits b

theorem rxDropCksum (b : Byte) : Statement (.rxDropCksum b) := fun _ => accumWord_fits b

theorem rxFrame (b : Byte) : Statement (.rxFrame b) := fun _ => accumWord_fits b

theorem rxDropShort (b : Byte) : Statement (.rxDropShort b) := fun _ => accumWord_fits b

theorem rxDropHdr (b : Byte) : Statement (.rxDropHdr b) := fun _ => accumWord_fits b

theorem txCfg (speed ftype mode : Byte) : Statement (.txCfg speed ftype mode) := fun _ => rfl

theorem txFrameStd (id : BitVec 32) (dlc : BitVec 4) (data : BitVec 64) : Statement (.txFrameStd id dlc data) :=
  fun _ => rfl

theorem txFrameExt (id : BitVec 32) (dlc : BitVec 4) (data : BitVec 64) : Statement (.txFrameExt id dlc data) :=
  fun _ => rfl

theorem txReject (r : Bool) : Statement (.txReject r) := fun _ => by revert r; decide

theorem txXfer : Statement .txXfer := fun _ => by decide

theorem txWait : Statement .txWait := fun _ => by decide

theorem txIdle : Statement .txIdle := fun _ => by decide

theorem hdrConfig : Statement .hdrConfig := fun _ => by decide

theorem hdrData (l : BitVec 4) : Statement (.hdrData l) := fun _ => by revert l; decide

theorem hdrOther (b : Byte) : Statement (.hdrOther b) := fun _ => by revert b; decide

/-- The descriptor byte of an outbound packet fits `11e0llll`, that of an inbound frame `1100llll`. -/
theorem descriptor_fits (e : Bool) (l : BitVec 4) :
    (descriptorBits e l &&& 0xD0#8 == 0xC0#8) = true ∧ (descriptorBits false l &&& 0xF0#8 == 0xC0#8) = true := by
  cases e <;> revert l <;> decide

theorem pktCfg (s f m c : Byte) : Statement (.pktCfg s f m c) := fun _ => by
  simp [fitsRow, encode, packetPattern, pktCfgBytes, fitsBytes, List.replicate]

theorem pktFrame (e : Bool) (l : BitVec 4) (i j : Byte) (d : BitVec 64) : Statement (.pktFrame e l i j d) := fun _ => by
  have h := (descriptor_fits e l).1
  simp only [beq_iff_eq] at h
  simp [fitsRow, encode, packetPattern, pktFrameBytes, outFrameBytes, fitsBytes, List.replicate, h]

theorem pktFrameIn (l : BitVec 4) (i j : Byte) (d : List Byte) (t : Byte) : Statement (.pktFrameIn l i j d t) :=
  fun _ => by
    have h := (descriptor_fits false l).2
    simp only [beq_iff_eq] at h
    simp [fitsRow, encode, packetPattern, pktFrameInBytes, fitsBytes, h]

end Sys2Proof.Laws.TableRow
end

