-- ==== Sys2Proof/Tests/Slice0.lean ====
section
/-! SUPPORT. The model's own tests: the checks of WellFormed on ill-formed terms, one word for every constructor written
out from the encodings of `spec/opcode_table.json`, one edge at a time against the vectors V<n> of
`spec/95_test_vectors.md`, and a witness for the hypotheses of every statement that has some. -/

open Sys2Proof Sys2Proof.Machine

namespace Sys2Proof.Tests

/-! ### Helpers -/

/-- The state an outcome goes on in; the reset state where it stops. -/
def ran (o : Host.Outcome State Fault Refusal) : State :=
  match o with
  | .next s => s
  | .fault _ => State.reset
  | .refused _ => State.reset

/-- An outcome that goes on. -/
def goesOn (o : Host.Outcome State Fault Refusal) : Bool :=
  match o with
  | .next _ => true
  | .fault _ => false
  | .refused _ => false

/-- The reset state with a candidate held. -/
def held (bs : List Byte) : State := State.reset.holdCandidate bs

/-- An edge that presents one byte. -/
def byteIn (b : Byte) : Inputs := { rxValid := true, rxByte := b }

/-- The first 19 bytes of V2. -/
def v2Head : List Byte := [0xAA, 0x55, 0x12, 0x01, 0x01, 0, 0, 0, 0, 0, 0, 0, 0, 0x00, 0x01, 0, 0, 0, 0]

/-- The first 12 bytes of V1. -/
def v1Head : List Byte := [0xAA, 0xC8, 0x02, 0x01, 0x01, 0x02, 0x03, 0x04, 0x05, 0x06, 0x07, 0x08]

/-- The first 19 bytes of V16. -/
def v16Head : List Byte :=
  [0xAA, 0xCF, 0x01, 0x00, 0x10, 0x11, 0x12, 0x13, 0x14, 0x15, 0x16, 0x17, 0x18, 0x19, 0x1A, 0x1B, 0x1C, 0x1D, 0x1E]

/-- A command like that of V2 but with a non-zero byte 18; bytes 2..18 add up to `0x15 + 0x80`. -/
def byte18Head : List Byte := v2Head.take 18 ++ [0x80]

/-- The request of V2. -/
def cfgV2 : Inputs := { cfgValid := true, cfgSpeed := 0x01, cfgFtype := 0x01, cfgMode := 0x00 }

/-- The request of V1. -/
def txfV1 : Inputs :=
  { txfValid := true, txfId := 0x0102, txfType := 0b00, txfDlc := 8, txfData := 0x0807060504030201 }

/-- The request of V46. -/
def txfV46 : Inputs :=
  { txfValid := true, txfId := 0x12345678, txfType := 0b01, txfDlc := 2, txfData := 0x770000000000ADDE }

/-- The reset state with the packet of V46 in flight at index `k`. -/
def sendingV46 (k : BitVec 5) : State :=
  { State.reset with
    txBusy := true
    txIdx := k
    txLen := 13
    txPkt := #v[0xAA, 0xE2, 0x78, 0x56, 0xDE, 0xAD, 0, 0, 0, 0, 0, 0x77, 0x55, 0, 0, 0, 0, 0, 0, 0] }

/-! ### WellFormed: every check refuses an ill-formed term and lets a well-formed one pass -/

theorem test_wf_skip_refuses_the_marker : (Instr.rxSkip 0xAA).wf = false ∧ (Instr.rxSkip 0x55).wf = true := by decide

theorem test_wf_other_refuses_the_tag : (Instr.hdrOther 0x55).wf = false ∧ (Instr.hdrOther 0x54).wf = true := by decide

theorem test_wf_other_refuses_data_headers :
    (Instr.hdrOther 0xC0).wf = false ∧ (Instr.hdrOther 0xCF).wf = false ∧ (Instr.hdrOther 0xD0).wf = true ∧
    (Instr.hdrOther 0xE8).wf = true := by decide

/-- V10: the checksum of `03 02 01` is `19`. -/
theorem test_wf_command_refuses_a_wrong_checksum :
    (Instr.pktCfg 0x03 0x02 0x01 0x18).wf = false ∧ (Instr.pktCfg 0x03 0x02 0x01 0x19).wf = true := by decide

theorem test_wf_inbound_refuses_a_wrong_length :
    (Instr.pktFrameIn 2 0x10 0x00 [0x01] 0x55).wf = false ∧
    (Instr.pktFrameIn 2 0x10 0x00 [0x01, 0x02, 0x03] 0x55).wf = false ∧
    (Instr.pktFrameIn 2 0x10 0x00 [0x01, 0x02] 0x00).wf = true := by decide

/-! ### Decoding: a word for every row, bit by bit from its "encoding", ones in the places marked `x` -/

theorem test_decode_rst : decode (.rxSel 0b11111001100 .frame) = .ok .rst ∧
    decode (.txSel 0b1111101 {}) = .ok .rst := by decide

theorem test_decode_rxIdle : decode (.rxSel 0b00110101010 .frame) = .ok .rxIdle := by decide

theorem test_decode_rxSkip : decode (.rxSel 0b01001010101 .frame) = .ok (.rxSkip 0x55) := by decide

theorem test_decode_rxSync : decode (.rxSel 0b01010101010 .frame) = .ok .rxSync := by decide

theorem test_decode_rxAccum : decode (.rxSel 0b01110101010 .incomplete) = .ok (.rxAccum 0xAA) := by decide

theorem test_decode_rxCfgOk : decode (.rxSel 0b01100010101 .cfgOk) = .ok (.rxCfgOk 0x15) := by decide

theorem test_decode_rxDropCksum : decode (.rxSel 0b01111101010 .cfgBad) = .ok (.rxDropCksum 0xEA) := by decide

theorem test_decode_rxFrame : decode (.rxSel 0b01101010101 .frame) = .ok (.rxFrame 0x55) := by decide

theorem test_decode_rxDropShort : decode (.rxSel 0b01100000111 .short) = .ok (.rxDropShort 0x07) := by decide

theorem test_decode_rxDropHdr : decode (.rxSel 0b01111101000 .header) = .ok (.rxDropHdr 0xE8) := by decide

theorem test_decode_txCfg :
    decode (.txSel 0b0011111 { cfgSpeed := 0x0C, cfgFtype := 0x01, cfgMode := 0x03 }) =
      .ok (.txCfg 0x0C 0x01 0x03) := by decide

theorem test_decode_txFrameStd :
    decode (.txSel 0b0010100 { txfId := 0x123, txfDlc := 3, txfData := 0x9900000044332211 }) =
      .ok (.txFrameStd 0x123 3 0x9900000044332211) := by decide

theorem test_decode_txFrameExt :
    decode (.txSel 0b0010101 { txfId := 0x12345678, txfDlc := 2, txfData := 0x770000000000ADDE }) =
      .ok (.txFrameExt 0x12345678 2 0x770000000000ADDE) := by decide

theorem test_decode_txReject :
    decode (.txSel 0b0010110 {}) = .ok (.txReject false) ∧ decode (.txSel 0b0000111 {}) = .ok (.txReject true) := by
  decide

theorem test_decode_txXfer : decode (.txSel 0b0111111 {}) = .ok .txXfer := by decide

theorem test_decode_txWait : decode (.txSel 0b0101101 {}) = .ok .txWait := by decide

theorem test_decode_txIdle : decode (.txSel 0b0010011 {}) = .ok .txIdle := by decide

theorem test_decode_hdrConfig : decode (.hdr 0b01010101) = .ok .hdrConfig := by decide

theorem test_decode_hdrData :
    decode (.hdr 0b11000000) = .ok (.hdrData 0) ∧ decode (.hdr 0b11001111) = .ok (.hdrData 15) := by decide

theorem test_decode_hdrOther :
    decode (.hdr 0b11101000) = .ok (.hdrOther 0xE8) ∧ decode (.hdr 0b10111111) = .ok (.hdrOther 0xBF) := by decide

/-- V10. -/
theorem test_decode_pktCfg :
    decode (.cfgBytes [0b10101010, 0b01010101, 0b00010010, 0x03, 0x02, 0, 0, 0, 0, 0, 0, 0, 0, 0x01, 0b00000001, 0, 0, 0,
      0, 0x19]) = .ok (.pktCfg 0x03 0x02 0x01 0x19) := by decide

/-- The same with a wrong checksum, and with a wrong command byte, is no command. -/
theorem test_decode_pktCfg_rejects :
    decode (.cfgBytes [0xAA, 0x55, 0x12, 0x03, 0x02, 0, 0, 0, 0, 0, 0, 0, 0, 0x01, 0x01, 0, 0, 0, 0, 0x18]) =
      .rejected .configChecksum ∧
    decode (.cfgBytes [0xAA, 0x55, 0x13, 0x03, 0x02, 0, 0, 0, 0, 0, 0, 0, 0, 0x01, 0x01, 0, 0, 0, 0, 0x1A]) =
      .rejected .notConfigCommand := by decide

/-- V46: descriptor `E2` is `11e0llll` with `e = 1`, `l = 2`. -/
theorem test_decode_pktFrame :
    decode (.outBytes [0b10101010, 0b11100010, 0x78, 0x56, 0xDE, 0xAD, 0, 0, 0, 0, 0, 0x77, 0b01010101]) =
      .ok (.pktFrame true 2 0x78 0x56 0x770000000000ADDE) := by decide

/-- Descriptor bit 4 set is no outbound frame (R84). -/
theorem test_decode_pktFrame_rejects :
    decode (.outBytes [0xAA, 0xF2, 0x78, 0x56, 0xDE, 0xAD, 0, 0, 0, 0, 0, 0x77, 0x55]) = .rejected .notOutboundFrame := by
  decide

/-- V22, whose trailer is `00`. -/
theorem test_decode_pktFrameIn :
    decode (.inBytes [0b10101010, 0b11000010, 0x10, 0x00, 0x01, 0x02, 0x00]) =
      .ok (.pktFrameIn 2 0x10 0x00 [0x01, 0x02] 0x00) := by decide

theorem test_decode_pktFrameIn_rejects :
    decode (.inBytes [0xAB, 0xC2, 0x10, 0x00, 0x01, 0x02, 0x00]) = .rejected .noMarker ∧
    decode (.inBytes [0xAA, 0xE2, 0x10, 0x00, 0x01, 0x02, 0x00]) = .rejected .notDataShaped ∧
    decode (.inBytes [0xAA, 0xC2, 0x10, 0x00, 0x01, 0x02]) = .rejected .truncated ∧
    decode (.inBytes [0xAA, 0xC1, 0x10, 0x00, 0x01, 0x02, 0x00]) = .rejected .trailingBytes := by decide

/-! ### Table words: read, and placed for the next step -/

theorem test_table_word_reads :
    decodeTableWord 11 0x400 = some .rst ∧ decodeTableWord 16 0x2AA = some .rxSync ∧
    decodeTableWord 8 0x05 = some (.txFrameExt 0 0 0) ∧ decodeTableWord 8 0xC8 = some (.hdrData 8) ∧
    decodeTableWord 32 0 = none := by decide

/-- V1 as a number: byte 0 in the low bits. -/
theorem test_table_word_reads_v1 :
    decodeTableWord 104 0x5508070605040302010102C8AA = some (.pktFrame false 8 0x02 0x01 0x0807060504030201) := by
  decide

theorem test_placed_sync_runs :
    (ran (step (State.reset.withFetchWord 16 0x2AA))).rxEvt = .sync ∧
    (ran (step (State.reset.withFetchWord 16 0x2AA))).cur = 1 := by decide

theorem test_placed_accum_runs :
    (ran (step (State.reset.withFetchWord 16 0x3AA))).rxEvt = .accum ∧
    (ran (step (State.reset.withFetchWord 16 0x3AA))).cur = 3 := by decide

theorem test_placed_frame_loads :
    txByte (ran (step (State.reset.withFetchWord 104 0x5508070605040302010102C8AA))) = 0xAA ∧
    (ran (step (State.reset.withFetchWord 104 0x5508070605040302010102C8AA))).txPkt[1] = 0xC8 := by decide

/-! ### Reset and the receive operations -/

/-- R251 and P4: an edge with `rst = 1` while a packet is in flight and a candidate is held. -/
theorem test_rst :
    let t := ran (edge { rst := true, rxValid := true, rxByte := 0xAA, txReady := true } (sendingV46 5))
    (t.sync, t.cur, t.txBusy, t.txIdx, t.txLen, t.rxEvt) = (false, 0, false, 0, 0, .none) ∧ t.txPkt[3] = 0x56 := by
  decide

/-- V29. -/
theorem test_rxIdle :
    let t := ran (edge {} (held [0xAA, 0xC8, 0x00, 0x00, 0x05, 0x55]))
    (t.sync, t.cur, t.rxEvt, t.rxfValid) = (true, 6, .none, false) := by decide

/-- V25. -/
theorem test_rxSkip :
    let t := ran (edge (byteIn 0x55) State.reset)
    (t.sync, t.cur, t.rxEvt, t.buf) = (false, 0, .skip, []) := by decide

/-- R182. -/
theorem test_rxSync :
    let t := ran (edge (byteIn 0xAA) State.reset)
    (t.sync, t.cur, t.rxEvt, Memory.read t.buf 0) = (true, 1, .sync, 0xAA) := by decide

/-- V18: a marker inside a payload is appended. -/
theorem test_rxAccum :
    let t := ran (edge (byteIn 0xAA) (held [0xAA, 0xC8, 0x01, 0x02]))
    (t.sync, t.cur, t.rxEvt, Memory.read t.buf 4) = (true, 5, .accum, 0xAA) := by decide

/-- V4: at cursor 12 a candidate of declared length 8 is still incomplete. -/
theorem test_rxAccum_boundary :
    let t := ran (edge (byteIn 0x08) (held (v1Head.take 11)))
    (t.sync, t.cur, t.rxEvt) = (true, 12, .accum) := by decide

/-- V12. -/
theorem test_rxCfgOk :
    let t := ran (edge (byteIn 0x15) (held v2Head))
    (t.sync, t.cur, t.rxEvt, t.rxfValid) = (false, 0, .cfgOk, false) := by decide

/-- V23: byte 2 of a command is not checked. -/
theorem test_rxCfgOk_byte_two :
    (ran (edge (byteIn 0x13) (held ([0xAA, 0x55, 0x13] ++ List.replicate 16 0)))).rxEvt = .cfgOk := by decide

/-- V13. -/
theorem test_rxDropCksum :
    let t := ran (edge (byteIn 0xEA) (held v2Head))
    (t.sync, t.cur, t.rxEvt, t.rxfValid) = (false, 0, .dropCksum, false) := by decide

/-- V11 and V30. -/
theorem test_rxFrame :
    let t := ran (edge (byteIn 0x55) (held v1Head))
    (t.sync, t.cur, t.rxEvt, t.rxfValid) = (false, 0, .frame, true) ∧
    (t.rxfId, t.rxfType, t.rxfDlc, t.rxfData) = (0x00000102, 0b00, 8, 0x0807060504030201) := by decide

/-- V11: "A model using another `ID_RECON` gives `ID_RECON(02, 01)` here"; with a bitwise AND that is 0. -/
theorem test_rxFrame_other_recon :
    let t := ran (edgeWith (fun b2 b3 => (b2 &&& b3).setWidth 16) (byteIn 0x55) (held v1Head))
    (t.rxfValid, t.rxfId, t.rxfDlc, t.rxfData) = (true, 0x00000000, 8, 0x0807060504030201) := by decide

/-- V16: of fifteen declared bytes the first eight are delivered. -/
theorem test_rxFrame_long :
    let t := ran (edge (byteIn 0x55) (held v16Head))
    (t.rxfValid, t.rxfId, t.rxfDlc, t.rxfData) = (true, 0x00000001, 15, 0x1716151413121110) := by decide

/-- R10: byte 18 counts in the checksum. -/
theorem test_rxCfgOk_byte_eighteen :
    (ran (edge (byteIn 0x95) (held byte18Head))).rxEvt = .cfgOk ∧
    (ran (edge (byteIn 0x15) (held byte18Head))).rxEvt = .dropCksum := by decide

/-- V14. -/
theorem test_rxDropShort :
    let t := ran (edge (byteIn 0x55) (held [0xAA, 0xC0, 0x34, 0x12]))
    (t.sync, t.cur, t.rxEvt, t.rxfValid) = (false, 0, .dropShape, false) := by decide

/-- V21: the second marker is byte 1 of the candidate. -/
theorem test_rxDropHdr :
    let t := ran (edge (byteIn 0xAA) (held [0xAA]))
    (t.sync, t.cur, t.rxEvt, t.rxfValid) = (false, 0, .dropShape, false) := by decide

/-! ### The transmit operations -/

/-- V2 and V39. -/
theorem test_txCfg :
    let t := ran (edge cfgV2 State.reset)
    t.txPkt = #v[0xAA, 0x55, 0x12, 0x01, 0x01, 0, 0, 0, 0, 0, 0, 0, 0, 0x00, 0x01, 0, 0, 0, 0, 0x15] ∧
    (t.txBusy, t.txLen, t.txIdx, txByte t) = (true, 20, 0, 0xAA) := by decide

/-- V8: the checksum wraps. -/
theorem test_txCfg_wraps :
    (ran (edge { cfgValid := true, cfgSpeed := 0xFF, cfgFtype := 0xFF, cfgMode := 0xFF } State.reset)).txPkt[19] =
      0x10 := by decide

/-- V1. -/
theorem test_txFrameStd :
    let t := ran (edge txfV1 State.reset)
    t.txPkt.toList.take 13 = [0xAA, 0xC8, 0x02, 0x01, 0x01, 0x02, 0x03, 0x04, 0x05, 0x06, 0x07, 0x08, 0x55] ∧
    (t.txBusy, t.txLen) = (true, 13) := by decide

/-- V46. -/
theorem test_txFrameExt :
    let t := ran (edge txfV46 State.reset)
    t.txPkt.toList.take 13 = [0xAA, 0xE2, 0x78, 0x56, 0xDE, 0xAD, 0, 0, 0, 0, 0, 0x77, 0x55] ∧
    (t.txBusy, t.txLen) = (true, 13) := by decide

/-- V34. -/
theorem test_txFrameExt_out_of_contract :
    encodeFrame 0x1FFFFFFF 0b01 15 0xFFFFFFFFFFFFFFFF =
      [0xAA, 0xEF, 0xFF, 0xFF, 0xFF, 0xFF, 0xFF, 0xFF, 0xFF, 0xFF, 0xFF, 0xFF, 0x55] := by decide

/-- V40. -/
theorem test_txReject :
    let t := ran (edge { txfValid := true, txfType := 0b10 } State.reset)
    (t.txReject, t.txBusy) = (true, false) := by decide

/-- V40: the pulse lasts one cycle. -/
theorem test_txReject_ends : (ran (edge {} { State.reset with txReject := true })).txReject = false := by decide

/-- P3: a transfer moves on, and the last one ends the packet (R147). -/
theorem test_txXfer :
    (ran (edge { txReady := true } (sendingV46 3))).txIdx = 4 ∧
    ((ran (edge { txReady := true } (sendingV46 12))).txBusy, (ran (edge { txReady := true } (sendingV46 12))).txIdx) =
      (false, 0) := by decide

/-- V42. -/
theorem test_txWait :
    let t := ran (edge {} (sendingV46 3))
    (t.txIdx, txByte t) = (3, 0x56) := by decide

/-- V44: a request while a packet is in flight is not accepted. -/
theorem test_txWait_request_waits :
    cfgReady cfgV2 (sendingV46 3) = false ∧ (ran (edge cfgV2 (sendingV46 3))).txLen = 13 := by decide

/-- V45. -/
theorem test_txIdle :
    (ran (edge {} State.reset)).txBusy = false ∧ txByte { sendingV46 3 with txBusy := false } = 0x00 := by decide

/-- V41. -/
theorem test_configuration_first :
    let i : Inputs := { txfV1 with cfgValid := true, cfgSpeed := 0x01, cfgFtype := 0x01 }
    cfgReady i State.reset = true ∧ txfReady i State.reset = false ∧ (ran (edge i State.reset)).txLen = 20 := by decide

/-! ### The header and packet rows -/

theorem test_hdrConfig :
    let t := ran (exec .hdrConfig (held [0xAA]))
    (t.sync, t.cur, Memory.read t.buf 1) = (true, 2, 0x55) := by decide

/-- P2, edge e15. -/
theorem test_hdrData :
    let t := ran (exec (.hdrData 0) (held [0xAA]))
    (t.sync, t.cur, Memory.read t.buf 1) = (true, 2, 0xC0) := by decide

/-- V17. -/
theorem test_hdrOther :
    let t := ran (exec (.hdrOther 0x00) (held [0xAA]))
    (t.sync, t.cur, t.rxEvt) = (false, 0, .dropShape) := by decide

/-- V10. -/
theorem test_pktCfg :
    (ran (exec (.pktCfg 0x03 0x02 0x01 0x19) State.reset)).txPkt =
      #v[0xAA, 0x55, 0x12, 0x03, 0x02, 0, 0, 0, 0, 0, 0, 0, 0, 0x01, 0x01, 0, 0, 0, 0, 0x19] := by decide

/-- V33. -/
theorem test_pktFrame :
    (ran (exec (.pktFrame false 3 0x23 0x01 0x9900000044332211) State.reset)).txPkt.toList.take 13 =
      [0xAA, 0xC3, 0x23, 0x01, 0x11, 0x22, 0x33, 0x44, 0, 0, 0, 0x99, 0x55] := by decide

/-- V15. -/
theorem test_pktFrameIn :
    let t := ran (exec (.pktFrameIn 1 0x34 0x12 [0x5A] 0x55) State.reset)
    (t.rxfValid, t.rxfId, t.rxfDlc, t.rxfData) = (true, 0x00001234, 1, 0x5A) := by decide

/-- V22: the trailer is not checked. -/
theorem test_pktFrameIn_trailer :
    let t := ran (exec (.pktFrameIn 2 0x10 0x00 [0x01, 0x02] 0x00) State.reset)
    (t.rxfValid, t.rxfId, t.rxfDlc, t.rxfData) = (true, 0x00000010, 2, 0x0201) := by decide

/-! ### Witnesses: for every statement with hypotheses, inputs and states that meet them, at the ends of its ranges -/

/-- Transport ready at `n` edges. -/
def readyEdges (n : Nat) : List Inputs := List.replicate n { txReady := true }

/-- A legal state with a candidate held and a packet in flight. -/
def busyAndHeld : State := { sendingV46 12 with sync := true, cur := 12, buf := (held v1Head).buf }

theorem witness_ResetEdgeSetsEveryRegister : ({ rst := true, rxValid := true, cfgValid := true } : Inputs).rst = true := by
  decide

theorem witness_IdleLeavesDemuxUnchanged : ({} : Inputs).rst = false ∧ ({} : Inputs).rxValid = false := by decide

theorem witness_SearchingSkipsAllButMarker :
    (byteIn 0x55).rst = false ∧ (byteIn 0x55).rxValid = true ∧ State.reset.sync = false ∧ (byteIn 0x55).rxByte ≠ 0xAA := by
  decide

theorem witness_MarkerEntersAccumulating :
    (byteIn 0xAA).rst = false ∧ (byteIn 0xAA).rxValid = true ∧ State.reset.sync = false ∧ (byteIn 0xAA).rxByte = 0xAA := by
  decide

theorem witness_MarkerEntersAccumulating_only :
    edge (byteIn 0xAA) State.reset = .next (ran (edge (byteIn 0xAA) State.reset)) ∧ State.reset.sync = false ∧
    (ran (edge (byteIn 0xAA) State.reset)).sync = true := ⟨rfl, by decide, by decide⟩

/-- The hypotheses of `AccumAppendsTheByte`, together. -/
def accumHypotheses (b : Byte) (s : State) : Bool :=
  s.sync && decide (1 ≤ s.cur.toNat) &&
    complete (Memory.read (Memory.write s.buf s.cur.toNat b)) (s.cur.toNat + 1) == false

/-- Byte 1, the last byte but one of a command, the last but one of a frame of declared length 0. -/
theorem witness_AccumAppendsTheByte :
    (byteIn 0x55).rst = false ∧ (byteIn 0x55).rxValid = true ∧ accumHypotheses 0x55 (held [0xAA]) = true ∧
    accumHypotheses 0x00 (held (v2Head.take 18)) = true ∧ accumHypotheses 0x12 (held [0xAA, 0xC0, 0x34]) = true := by
  decide

theorem witness_ConfigEchoIsConsumedSilently :
    (byteIn 0x15).rst = false ∧ (byteIn 0x15).rxValid = true ∧ (held v2Head).sync = true ∧ (held v2Head).cur = 19 ∧
    Memory.read (held v2Head).buf 0 = 0xAA ∧ Memory.read (held v2Head).buf 1 = 0x55 ∧
    ((List.range 17).map fun k => (Memory.read (held v2Head).buf (2 + k)).toNat).sum % 256 =
      (byteIn 0x15).rxByte.toNat := by decide

/-- The same with a byte 18 that is not zero. -/
theorem witness_ConfigEchoIsConsumedSilently_byte18 :
    (byteIn 0x95).rst = false ∧ (byteIn 0x95).rxValid = true ∧ (held byte18Head).sync = true ∧
    (held byte18Head).cur = 19 ∧ Memory.read (held byte18Head).buf 0 = 0xAA ∧
    Memory.read (held byte18Head).buf 1 = 0x55 ∧ Memory.read (held byte18Head).buf 18 = 0x80 ∧
    ((List.range 17).map fun k => (Memory.read (held byte18Head).buf (2 + k)).toNat).sum % 256 =
      (byteIn 0x95).rxByte.toNat := by decide

theorem witness_WrongChecksumIsDropped :
    (byteIn 0xEA).rst = false ∧ (byteIn 0xEA).rxValid = true ∧ (held v2Head).sync = true ∧ (held v2Head).cur = 19 ∧
    Memory.read (held v2Head).buf 0 = 0xAA ∧ Memory.read (held v2Head).buf 1 = 0x55 ∧
    ((List.range 17).map fun k => (Memory.read (held v2Head).buf (2 + k)).toNat).sum % 256 ≠
      (byteIn 0xEA).rxByte.toNat := by decide

/-- The checksum that leaves out a byte 18 that is not zero is wrong. -/
theorem witness_WrongChecksumIsDropped_byte18 :
    (byteIn 0x15).rst = false ∧ (byteIn 0x15).rxValid = true ∧ (held byte18Head).sync = true ∧
    (held byte18Head).cur = 19 ∧ Memory.read (held byte18Head).buf 0 = 0xAA ∧
    Memory.read (held byte18Head).buf 1 = 0x55 ∧
    ((List.range 17).map fun k => (Memory.read (held byte18Head).buf (2 + k)).toNat).sum % 256 ≠
      (byteIn 0x15).rxByte.toNat := by decide

/-- The hypotheses of `FrameIsBuiltAndEmitted` on the state, together. -/
def frameHypotheses (l : BitVec 4) (s : State) : Bool :=
  s.sync && decide (1 ≤ l.toNat) && s.cur.toNat == l.toNat + 4 && Memory.read s.buf 0 == 0xAA &&
    Memory.read s.buf 1 == (0xC#4 ++ l)

/-- The declared lengths 1, 8 and 15. -/
theorem witness_FrameIsBuiltAndEmitted :
    (byteIn 0x00).rst = false ∧ (byteIn 0x00).rxValid = true ∧
    frameHypotheses 1 (held [0xAA, 0xC1, 0x34, 0x12, 0x5A]) = true ∧ frameHypotheses 8 (held v1Head) = true ∧
    frameHypotheses 15 (held v16Head) = true := by decide

theorem witness_ZeroLengthFrameIsDropped :
    (byteIn 0x55).rst = false ∧ (byteIn 0x55).rxValid = true ∧ (held [0xAA, 0xC0, 0x34, 0x12]).sync = true ∧
    (held [0xAA, 0xC0, 0x34, 0x12]).cur = 4 ∧ Memory.read (held [0xAA, 0xC0, 0x34, 0x12]).buf 1 = 0xC0 := by decide

/-- `0xBF` and `0xD0`, the neighbours of the data-shaped bytes, and the marker. -/
theorem witness_UnrecognisedHeaderIsDropped :
    (byteIn 0xBF).rst = false ∧ (byteIn 0xBF).rxValid = true ∧ (held [0xAA]).sync = true ∧ (held [0xAA]).cur = 1 ∧
    ∀ b ∈ [0xBF, 0xD0, 0xAA], (byteIn b).rxByte ≠ 0x55 ∧ hiNibble (byteIn b).rxByte ≠ 0xC := by decide

/-- Every row of the list, from a state with a whole frame but its trailer held. -/
theorem witness_ReceiveRowsFrame :
    ∀ i ∈ [Instr.rxIdle, .rxSkip 0x55, .rxSync, .rxAccum 0x55, .rxCfgOk 0x55, .rxDropCksum 0x55, .rxFrame 0x55,
      .rxDropShort 0x55, .rxDropHdr 0x55, .hdrConfig, .hdrData 8, .hdrOther 0x55],
      goesOn (exec i (held v1Head)) = true := by decide

theorem witness_AccumulatingAppendsAnyByte :
    (byteIn 0xAA).rst = false ∧ (byteIn 0xAA).rxValid = true ∧ (held (v1Head.take 4)).sync = true ∧
    edge (byteIn 0xAA) (held (v1Head.take 4)) = .next (ran (edge (byteIn 0xAA) (held (v1Head.take 4)))) :=
  ⟨by decide, by decide, by decide, rfl⟩

/-- Cursor 100 and cursor 99. -/
theorem witness_AppendOutsideTheBufferFaults :
    100 ≤ ({ held [0xAA] with cur := 100 } : State).cur.toNat ∧ ({ held [0xAA] with cur := 100 } : State).sync = true ∧
    ({ held [0xAA] with cur := 99 } : State).cur.toNat < 100 := by decide

theorem witness_CompletenessBoundaryIsExact : Memory.read (held v1Head).buf 1 = 0xC8 := by decide

/-- The hypotheses of `CandidateCompletesAtItsLength`, for a command, the shortest and the longest frame and an unrecognised
byte 1. -/
theorem witness_CandidateCompletesAtItsLength :
    State.reset.sync = false ∧
    ∀ c ∈ [(0x55, v2Head.drop 2 ++ [0x15]), (0xC0, [0x34, 0x12, 0x55]), (0xCF, v16Head.drop 2 ++ [0x55]), (0xE8, [])],
      (0xAA :: c.1 :: c.2 : List Byte).length =
        (if c.1 = 0x55 then 20 else if hiNibble c.1 = 0xC then (loNibble c.1).toNat + 5 else 2) := by decide

theorem witness_HeaderRowsConsumeByteOne :
    (held [0xAA]).sync = true ∧ (held [0xAA]).cur = 1 ∧ (Instr.hdrOther 0xE8).wf = true := by decide

theorem witness_HeaderRowIsTheReceiveRow :
    (byteIn 0xC8).rst = false ∧ (byteIn 0xC8).rxValid = true ∧ (held [0xAA]).sync = true ∧ (held [0xAA]).cur = 1 := by
  decide

theorem witness_PacketRowIsTheRequest : (Instr.pktCfg 0xFF 0xFF 0xFF 0x10).wf = true := by decide

/-- The declared lengths 0, 1 and 15. -/
theorem witness_InboundPacketIsDecoded :
    State.reset.sync = false ∧ (Instr.pktFrameIn 0 0x34 0x12 [] 0x55).wf = true ∧
    (Instr.pktFrameIn 1 0x34 0x12 [0x5A] 0x55).wf = true ∧
    (Instr.pktFrameIn 15 0x01 0x00 (v16Head.drop 4) 0x55).wf = true := by decide

theorem witness_ConfigRequestIsEncoded :
    cfgV2.rst = false ∧ State.reset.txBusy = false ∧ cfgV2.cfgValid = true := by decide

/-- A Standard and an Extended request. -/
theorem witness_FrameRequestIsEncoded :
    ∀ i ∈ [txfV1, txfV46], i.rst = false ∧ State.reset.txBusy = false ∧ i.cfgValid = false ∧ i.txfValid = true ∧
      (i.txfType = 0b00 ∨ i.txfType = 0b01) := by decide

/-- An Error and a reserved request. -/
theorem witness_ErrorTypedRequestIsRejected :
    ∀ i ∈ [{ txfV1 with txfType := 0b10 }, { txfV1 with txfType := 0b11 }], i.rst = false ∧ State.reset.txBusy = false ∧
      i.cfgValid = false ∧ i.txfValid = true ∧ (i.txfType = 0b10 ∨ i.txfType = 0b11) := by decide

/-- The first, the last but one and the last byte of a packet. -/
theorem witness_TransferAdvancesOrEnds :
    ({ txReady := true } : Inputs).rst = false ∧ ({ txReady := true } : Inputs).txReady = true ∧
    ∀ k ∈ [0, 11, 12], (sendingV46 k).txBusy = true ∧ (sendingV46 k).TxInv := by decide

theorem witness_WaitAndIdleChangeNothing :
    ({} : Inputs).rst = false ∧ ({} : Inputs).txReady = false ∧ (sendingV46 3).txBusy = true ∧
    ({} : Inputs).cfgValid = false ∧ ({} : Inputs).txfValid = false ∧ State.reset.txBusy = false := by decide

theorem witness_TransmitRowsFrame :
    ∀ i ∈ [Instr.txCfg 0x01 0x01 0x00, .txFrameStd 0x102 8 0, .txFrameExt 0x102 8 0, .txReject true, .txXfer, .txWait,
      .txIdle, .pktCfg 0x01 0x01 0x00 0x15, .pktFrame true 8 0x01 0x01 0], goesOn (exec i (sendingV46 3)) = true := by
  decide

/-- A rejected request, and an edge that rejects nothing. -/
theorem witness_RejectPulseLastsOneCycle :
    edge { txfV1 with txfType := 0b10 } State.reset = .next { State.reset with txReject := true } ∧
    edge {} { State.reset with txReject := true } = .next State.reset := ⟨rfl, rfl⟩

theorem witness_ConfigurationWinsOverFrame :
    ({ txfV1 with cfgValid := true } : Inputs).rst = false ∧ ({ txfV1 with cfgValid := true } : Inputs).cfgValid = true ∧
    ({ txfV1 with cfgValid := true } : Inputs).txfValid = true ∧ State.reset.txBusy = false := by decide

theorem witness_OutboundPortsFollowTheRegisters :
    State.reset.TxInv ∧ State.reset.txBusy = false ∧ (sendingV46 12).TxInv ∧ (sendingV46 12).txBusy = true := by decide

theorem witness_HandshakesMatchTheRows :
    (sendingV46 3).txBusy = true ∧ cfgAccepted cfgV2 State.reset = true ∧ txfAccepted txfV1 State.reset = true ∧
    transferred { txReady := true } (sendingV46 3) = true := by decide

/-- A command at its bytes 0 and 19 and at its end, a frame at its bytes 0 and 12 and at its end. -/
theorem witness_PacketLeavesByteByByte :
    State.reset.Inv ∧ cfgV2.rst = false ∧ cfgAccepted cfgV2 State.reset = true ∧ txfV46.rst = false ∧
    txfAccepted txfV46 State.reset = true ∧ txfV46.txfType = 0b01 ∧
    (∀ n ∈ [0, 12, 13, 19, 20], ∀ j ∈ readyEdges n, j.rst = false ∧ j.txReady = true) ∧
    (readyEdges 0).length = 0 ∧ (readyEdges 19).length < (ran (edge cfgV2 State.reset)).txLen.toNat ∧
    (readyEdges 20).length = (ran (edge cfgV2 State.reset)).txLen.toNat ∧
    (readyEdges 12).length < (ran (edge txfV46 State.reset)).txLen.toNat ∧
    (readyEdges 13).length = (ran (edge txfV46 State.reset)).txLen.toNat := by decide

/-- A dutiful request at length 8, and an edge with no request. -/
theorem witness_DutifulHostIsNeverRejected :
    txfV1.keepsFrameDuty ∧ ({} : Inputs).keepsFrameDuty ∧ goesOn (edge txfV1 State.reset) = true ∧
    goesOn (edge {} State.reset) = true := by decide

/-- A host that has sent its command and presents two bytes of the link, then a frame it holds until it is accepted. -/
def dutifulRun : List Inputs :=
  [{ rst := true, txReady := true }, byteIn 0xAA, { txfV1 with rxValid := true, rxByte := 0x55 }, { txReady := true }]

/-- A host whose frame request waits for a packet in flight. -/
def waitingRun : List Inputs := [{ txfV1 with txReady := true }, { txfV1 with txReady := true }, txfV1]

/-- The host's check and interval in these runs, and a session that is past its start. -/
def hostAllChecked : HostParams := { checked := fun _ => true, settle := 2 }

theorem witness_DutifulHostIsNeverRejected_run :
    keepsDuties hostAllChecked { link := [⟨0xAA, .traffic⟩, ⟨0x55, .traffic⟩, ⟨0x12, .traffic⟩] } dutifulRun State.reset = true ∧
    goesOn (runEdges dutifulRun State.reset) = true ∧ dutifulRun ≠ [] ∧
    presentedBytes dutifulRun = [0xAA, 0x55] := by decide

/-- The packet of V46 at its last byte but one: the request waits two edges and is accepted at the third. -/
theorem witness_DutifulRequestIsHeld :
    keepsDuties hostAllChecked { phase := .live } (waitingRun.take 2 ++ [txfV1]) (sendingV46 11) = true ∧
    goesOn (runEdges (waitingRun.take 2) (sendingV46 11)) = true ∧ acceptedFrames (waitingRun.take 2) (sendingV46 11) = [] ∧
    txfAccepted txfV1 (ran (runEdges (waitingRun.take 2) (sendingV46 11))) = true := by decide

/-- The same for a configuration request. -/
theorem witness_DutifulRequestIsHeld_cfg :
    keepsDuties hostAllChecked { phase := .live } ([{ cfgV2 with txReady := true }] ++ [cfgV2]) (sendingV46 12) = true ∧
    goesOn (runEdges [{ cfgV2 with txReady := true }] (sendingV46 12)) = true ∧
    acceptedCommands [{ cfgV2 with txReady := true }] (sendingV46 12) = [] ∧
    cfgAccepted cfgV2 (ran (runEdges [{ cfgV2 with txReady := true }] (sendingV46 12))) = true := by decide

/-- Each duty broken: a frame before `rst`, a byte the link has not delivered, an unchecked code, a request changed before
it is accepted, one still asserted after, one of type Error, one in the settle interval. -/
theorem test_broken_duties :
    edgeDuty hostAllChecked {} txfV1 = false ∧
    edgeDuty hostAllChecked { phase := .live, link := [⟨0x55, .traffic⟩] } (byteIn 0xAA) = false ∧
    edgeDuty { hostAllChecked with checked := fun _ => false } { phase := .live } cfgV2 = false ∧
    edgeDuty hostAllChecked { phase := .live, last := cfgV2 } { cfgV2 with cfgMode := 0x01 } = false ∧
    edgeDuty hostAllChecked { phase := .live, last := txfV1 } {} = false ∧
    edgeDuty hostAllChecked { phase := .live, last := txfV1, txfTaken := true } txfV1 = false ∧
    edgeDuty hostAllChecked { phase := .live } { txfV1 with txfType := 0b10 } = false ∧
    edgeDuty hostAllChecked { phase := .settling 1 } txfV1 = false ∧
    edgeDuty hostAllChecked { phase := .settling 0 } txfV1 = true := by decide

/-- R234, in the reading of log 15: at the first reset edge a frame request may stand beside `rst`, and is held from there. -/
theorem test_request_at_the_first_reset :
    keepsDuties hostAllChecked {} [{ txfV1 with rst := true }, txfV1, {}] State.reset = true ∧
    keepsDuties hostAllChecked {} [{ txfV1 with rst := true }, {}] State.reset = false ∧
    keepsDuties hostAllChecked {} [txfV1, txfV1] State.reset = false := by decide

/-- R260: a frame request while a byte of the echo is left, or after a part of it with no reset, breaks the duty; after the
whole echo, after a part and a reset, and before a later command's echo it does not. -/
theorem test_echo_duty :
    let m : HostMemory := { phase := .settling 0, commands := 1 }
    edgeDuty hostAllChecked { m with link := [⟨0xAA, .echo 0⟩] } txfV1 = false ∧
    edgeDuty hostAllChecked { m with link := [⟨0xAA, .echoPart 0⟩] } txfV1 = false ∧
    edgeDuty hostAllChecked (HostMemory.after hostAllChecked (byteIn 0xAA) State.reset
      { m with link := [⟨0xAA, .echoPart 0⟩] }) txfV1 = false ∧
    edgeDuty hostAllChecked (HostMemory.after hostAllChecked (byteIn 0xAA) State.reset
      { m with link := [⟨0xAA, .echo 0⟩] }) txfV1 = true ∧
    edgeDuty hostAllChecked (HostMemory.after hostAllChecked { rst := true } State.reset { m with partEcho := true }) txfV1 =
      true ∧
    edgeDuty hostAllChecked { m with link := [⟨0x01, .traffic⟩, ⟨0xAA, .echo 1⟩] } txfV1 = true := by decide

/-- The last byte of the echo, then a frame request with the echo of a second command still to come; and a part of the echo,
a reset, a frame request. -/
theorem witness_DutifulHostIsNeverRejected_echo :
    keepsDuties hostAllChecked { phase := .settling 1, commands := 1, link := [⟨0x15, .echo 0⟩, ⟨0xAA, .echo 1⟩] }
      ([byteIn 0x15] ++ [txfV1]) State.reset = true ∧
    goesOn (runEdges [byteIn 0x15] State.reset) = true ∧ txfV1.txfValid = true ∧
    keepsDuties hostAllChecked { phase := .settling 2, commands := 1, link := [⟨0xAA, .echoPart 0⟩] }
      ([byteIn 0xAA, { rst := true }] ++ [txfV1]) State.reset = true ∧
    goesOn (runEdges [byteIn 0xAA, { rst := true }] State.reset) = true := by decide

/-- D27: with the host closed a packet in flight stays where it is. -/
theorem test_closed_keeps_the_packet :
    let t := ran (step { sendingV46 3 with stim := closeStimulus, txReject := true })
    (t.txBusy, t.txIdx, t.txReject, t.stim) = (true, 3, false, closeStimulus) := by decide

/-- P3: without reset, from a packet at its last byte to an accepted request. -/
theorem witness_OutboundBytesArePacketsInOrder :
    (sendingV46 12).TxInv ∧ (∀ i ∈ waitingRun.take 2, i.rst = false) ∧
    goesOn (runEdges (waitingRun.take 2) (sendingV46 12)) = true ∧ sentBytes (waitingRun.take 2) (sendingV46 12) = [0x55] ∧
    acceptedPackets (waitingRun.take 2) (sendingV46 12) = v1Head ++ [0x55] := by decide

/-- R233: with no byte the call gets none, though the ports still show an old frame. -/
theorem test_receiveNow_none :
    receiveNow {} none { State.reset with rxfValid := true, rxfDlc := 1 } =
      .next ({ State.reset with rxfValid := true, rxfDlc := 1 }, .noFrame) := rfl

/-- V11 through the receive call. -/
theorem witness_ReceiveCallsEndAsTheContractSays :
    receiveNow {} (some 0x55) (held v1Head) =
      .next (ran (edge (byteIn 0x55) (held v1Head)), .frame ⟨0x0102, 0b00, 8, 0x0807060504030201⟩) ∧
    receiveNow {} (some 0xEA) (held v2Head) = .next (ran (edge (byteIn 0xEA) (held v2Head)), .noFrame) ∧
    receiveBlocking [({}, .quiet), ({}, .byte 0x55), ({}, .quiet)] (held v1Head) =
      .next (ran (edge (byteIn 0x55) (ran (edge {} (held v1Head)))), .frame ⟨0x0102, 0b00, 8, 0x0807060504030201⟩,
        [({}, .quiet)]) ∧
    receiveBlocking [({}, .quiet), ({}, .fails)] (held v1Head) =
      .next (ran (edge {} (held v1Head)), .transportFailure, []) ∧
    receiveBlocking [({}, .quiet)] (held v1Head) = .next (ran (edge {} (held v1Head)), .suspended, []) ∧
    (held v1Head).Inv := ⟨rfl, rfl, rfl, rfl, rfl, by decide⟩

/-- A supported and an unsupported rate; a session's script on the reset state; a closed host. -/
theorem witness_DriverOpensSendsAndCloses :
    openCall (fun _ => none) 500000 .discarded = .configurationError ∧
    (∀ e ∈ [Echo.discarded, .presented [0xAA, 0x55], .partly [0xAA]],
      (({ State.reset with
          stim := openScript Config.settleEdges ⟨0x03, 0x01, 0x00⟩ e ++ sendStimulus ⟨0x102, 0b00, 8, 0⟩ ++ closeStimulus } :
        State).stim = openScript Config.settleEdges ⟨0x03, 0x01, 0x00⟩ e ++ sendStimulus ⟨0x102, 0b00, 8, 0⟩ ++ closeStimulus)) ∧
    (0b00#2 ≠ 0b10 ∧ 0b00#2 ≠ 0b11 ∧ (8#4).toNat ≤ 8) ∧
    ({ sendingV46 3 with stim := closeStimulus } : State).stim = closeStimulus ∧
    ({ sendingV46 3 with stim := closeStimulus } : State).nextInputs = {} :=
  ⟨rfl, fun _ _ => rfl, by decide, rfl, rfl⟩

theorem witness_CommandEchoLaw : State.reset.sync = false := by decide

/-- The lengths 1 and 8. -/
theorem witness_StandardLoopbackLaw :
    State.reset.sync = false ∧ ∀ l ∈ [(1 : BitVec 4), 8], 1 ≤ l.toNat ∧ l.toNat ≤ 8 := by decide

theorem witness_ExtendedLoopbackLaw : (held []).toSearching.sync = false := by decide

theorem witness_EventNamesTheOperation :
    State.reset.Inv ∧ busyAndHeld.Inv ∧ goesOn (edge (byteIn 0x55) busyAndHeld) = true ∧
    goesOn (edge { rst := true } busyAndHeld) = true := ⟨by decide, by decide, by decide, by decide⟩

theorem witness_OnlyFramesAreReceived :
    goesOn (edge (byteIn 0x55) (held v1Head)) = true ∧ (received (ran (edge (byteIn 0x55) (held v1Head)))).isSome = true ∧
    (received (ran (edge (byteIn 0xEA) (held v2Head)))).isSome = false := by decide

theorem witness_FrameRegistersHold :
    (byteIn 0xEA).rst = false ∧ goesOn (edge (byteIn 0xEA) (held v2Head)) = true ∧
    (ran (edge (byteIn 0xEA) (held v2Head))).rxfValid = false := by decide

/-- A scripted reset, and a scripted byte. -/
theorem witness_StepRunsTheDecodedRows :
    ({ State.reset with stim := [.rst] } : State).nextInputs.rst = true ∧
    ({ State.reset with stim := [.rx [0xAA]] } : State).nextInputs.rst = false := by decide

/-- A legal state that holds a candidate and sends, and its step on the byte that completes the candidate. -/
theorem witness_StepKeepsTheInvariants :
    State.reset.Inv ∧ ({ busyAndHeld with stim := [.rx [0x55]] } : State).Inv ∧
    goesOn (step { busyAndHeld with stim := [.rx [0x55]] }) = true := ⟨by decide, by decide, by decide⟩

theorem witness_LegalStateNeverStops : ({ held (v1Head.take 11) with stim := [.rx [0xAA]] } : State).Inv := by decide

/-- Two states that differ in a cell above the cursor and in a packet byte above the length. -/
theorem witness_UnobservableBytesStayUnobservable :
    busyAndHeld.TxInv ∧
    busyAndHeld.SameVisible
      { busyAndHeld with buf := Memory.write busyAndHeld.buf 12 0x99, txPkt := busyAndHeld.txPkt.set 13 0x99 } := by
  refine ⟨by decide, ?_, fun _ => by decide, rfl⟩
  intro k hk
  have h : busyAndHeld.cur.toNat = 12 := by decide
  rw [h] at hk
  interval_cases k <;> decide

/-- Equal transmit sides beside different receive sides, and the other way round. -/
theorem witness_SidesAreIndependent :
    edge (byteIn 0xAA) State.reset = .next (ran (edge (byteIn 0xAA) State.reset)) ∧
    edge (byteIn 0x55) (held v2Head) = .next (ran (edge (byteIn 0x55) (held v2Head))) ∧
    (byteIn 0xAA).SameTransmit (byteIn 0x55) ∧ State.reset.SameTransmit (held v2Head) ∧
    edge cfgV2 State.reset = .next (ran (edge cfgV2 State.reset)) ∧
    edge {} (sendingV46 3) = .next (ran (edge {} (sendingV46 3))) ∧
    cfgV2.SameReceive {} ∧ State.reset.SameReceive (sendingV46 3) := by
  refine ⟨rfl, rfl, ?_, ?_, rfl, rfl, ?_, ?_⟩ <;>
    simp only [Inputs.SameTransmit, Inputs.SameReceive, State.SameTransmit, State.SameReceive] <;> decide

/-- One script for every statement; the two requests also while a packet is in flight. -/
theorem witness_ScriptDrivesThePorts :
    ∀ s ∈ [State.reset, sendingV46 3],
      (∀ st ∈ [Stimulus.rx [0xAA], .idle 1, .stall 1, .cfg 0x01 0x01 0x00, .txf 0x102 0 8 0, .waitTx, .rst, .edge {},
          .closed, .rx [], .idle 0, .stall 0],
        (({ s with stim := [st] } : State).stim = st :: [])) ∧ (sendingV46 3).txBusy = true ∧
        State.reset.txBusy = false := by decide

/-- Exhausted statements give way to the next one within one edge. -/
theorem test_exhausted_statements_give_way :
    ({ State.reset with stim := [.rx [], .idle 0, .stall 0, .waitTx, .rx [0xAA]] } : State).nextInputs.rxByte = 0xAA ∧
    ({ sendingV46 3 with stim := [.waitTx, .rx [0xAA]] } : State).nextInputs.rxValid = false := by decide

theorem witness_PresentedBytesAreConsumedInOrder :
    ({ State.reset with stim := [.rx [0xAA, 0xC0, 0x34]] } : State).stim = .rx [0xAA, 0xC0, 0x34] :: [] ∧
    goesOn (consume idRecon [0xAA, 0xC0, 0x34] { State.reset with stim := [.rx [0xAA, 0xC0, 0x34]] }) = true := by decide

theorem witness_DecodeOfEncode :
    (Instr.rxSkip 0xFF).wf = true ∧ (Instr.pktFrameIn 0 0x34 0x12 [] 0x55).wf = true ∧
    (Instr.pktFrameIn 15 0x01 0x00 (v16Head.drop 4) 0x55).wf = true := by decide

theorem witness_EncodeOfDecode :
    decode (.hdr 0xC8) = .ok (.hdrData 8) ∧ decode (.cfgBytes (v2Head ++ [0x15])) = .ok (.pktCfg 0x01 0x01 0x00 0x15) ∧
    decode (.outBytes (v1Head ++ [0x55])) = .ok (.pktFrame false 8 0x02 0x01 0x0807060504030201) ∧
    decode (.inBytes [0xAA, 0xC0, 0x34, 0x12, 0x55]) = .ok (.pktFrameIn 0 0x34 0x12 [] 0x55) := by decide

end Sys2Proof.Tests
end

section
/-! The two halves of an edge. The receive row and the transmit row that an edge decodes have the effect of `RxEdge` (R179)
and `TxEdge` (R154), and each half is one of a few moves, which the proofs after this one go through. -/

namespace Sys2Proof.Machine

/-! ### The receive half -/

/-- What the candidate in the buffer is (R171, steps 2 and 3). -/
def State.candidate (t : State) : Completion := completionOf (Memory.read t.buf) t.cur.toNat

/-- The state after steps 2 and 3 of R171 and the output registers of R179, by what the candidate is. -/
def State.finish (recon : IdRecon) (t : State) : State :=
  match t.candidate with
  | .incomplete => t.report (if t.cur = 1 then .sync else .accum)
  | .cfgOk => t.toSearching.report .cfgOk
  | .cfgBad => t.toSearching.report .dropCksum
  | .frame => t.toSearching.emit (buildFrame recon (Memory.read t.buf) t.cur.toNat)
  | .short => t.toSearching.report .dropShape
  | .header => t.toSearching.report .dropShape

/-- The pseudocode's steps 2 and 3 are `State.finish`. -/
theorem demuxFinish_present (recon : IdRecon) (t : State) : (demuxFinish recon t).present = t.finish recon := by
  simp only [demuxFinish, State.finish, State.candidate, completionOf, checksumOk, beq_iff_eq, ge_iff_le]
  split_ifs <;> rfl

/-- The condition column of RXSEL is the candidate after the append, where the append is possible. -/
theorem completionAfter_eq_candidate {b : Byte} {s : State} (h : s.cur.toNat < Config.bufDepth) :
    completionAfter b s = (s.storeByte b).candidate := by
  simp only [completionAfter, State.candidate, State.storeByte_buf, storeByte_cur_toNat h]

/-- `RxEdge` with no byte (R180). -/
theorem rxEdge_idle {recon : IdRecon} {i : Inputs} {s : State} (hv : i.rxValid = false) :
    rxEdge recon i s = .next (s.report .none) := by simp [rxEdge, hv]

/-- `RxEdge` in Searching (R181, R182). -/
theorem rxEdge_searching {recon : IdRecon} {i : Inputs} {s : State} (hv : i.rxValid = true) (hs : s.sync = false) :
    rxEdge recon i s = .next (if i.rxByte = marker then s.startCandidate.report .sync else s.report .skip) := by
  simp [rxEdge, hv, consumeByte_searching hs]

/-- `RxEdge` in Accumulating, at a cell that exists (R172, R183 to R188). -/
theorem rxEdge_accumulating {recon : IdRecon} {i : Inputs} {s : State} (hv : i.rxValid = true) (hs : s.sync = true)
    (hc : s.cur.toNat < Config.bufDepth) : rxEdge recon i s = .next ((s.storeByte i.rxByte).finish recon) := by
  simp [rxEdge, hv, consumeByte_accumulating hs hc, demuxFinish_present]

/-- A byte consumed in Accumulating at a cell that does not exist faults (log 5). -/
theorem consumeByte_beyond {recon : IdRecon} {b : Byte} {s : State} (hs : s.sync = true)
    (hc : ¬ s.cur.toNat < Config.bufDepth) : consumeByte recon b s = .fault .bufferIndex := by
  simp [consumeByte, demuxStore, hs, storeAtCursor_of_ge hc]

/-- `RxEdge` in Accumulating at a cell that does not exist faults (log 5). -/
theorem rxEdge_beyond {recon : IdRecon} {i : Inputs} {s : State} (hv : i.rxValid = true) (hs : s.sync = true)
    (hc : ¬ s.cur.toNat < Config.bufDepth) : rxEdge recon i s = .fault .bufferIndex := by
  simp [rxEdge, hv, consumeByte_beyond hs hc]

/-- The six rows of Accumulating: the append, then the end of the candidate that the row's condition names. -/
theorem execWith_rxRow_accumulating {recon : IdRecon} {i : Inputs} {s : State} (hr : i.rst = false)
    (hv : i.rxValid = true) (hs : s.sync = true) :
    execWith recon (rxRow i s) s = rxEdge recon i s := by
  by_cases hc : s.cur.toNat < Config.bufDepth
  · rw [rxEdge_accumulating hv hs hc, rxRow_eq, completionAfter_eq_candidate hc]
    cases hk : (s.storeByte i.rxByte).candidate <;>
      simp [hr, hv, hs, hk, State.finish, execWith, exec, execRxAccum, execRxCfgOk, execRxDropCksum, execRxDropShort,
        execRxDropHdr, appendAfter, dropAfter, emitAfter, storeAtCursor_of_lt hc]
  · rw [rxEdge_beyond hv hs hc, rxRow_eq]
    cases completionAfter i.rxByte s <;>
      simp [hr, hv, hs, execWith, exec, execRxAccum, execRxCfgOk, execRxDropCksum, execRxDropShort,
        execRxDropHdr, appendAfter, dropAfter, emitAfter, storeAtCursor_of_ge hc]

/-- The receive row of an edge has the effect of `RxEdge`. -/
theorem execWith_rxRow {recon : IdRecon} {i : Inputs} {s : State} (hr : i.rst = false) :
    execWith recon (rxRow i s) s = rxEdge recon i s := by
  cases hv : i.rxValid
  · rw [rxEdge_idle hv, rxRow_eq]
    simp [hr, hv, execWith, exec, execRxIdle]
  · cases hs : s.sync
    · rw [rxEdge_searching hv hs, rxRow_eq]
      by_cases hb : i.rxByte = marker <;> simp [hr, hv, hs, hb, execWith, exec, execRxSync, execRxSkip]
    · exact execWith_rxRow_accumulating hr hv hs

/-- A finished candidate: held if it is incomplete, else ended with or without a frame. -/
theorem State.finish_cases (recon : IdRecon) (t : State) :
    (t.candidate = .incomplete ∧ t.finish recon = t.report (if t.cur = 1 then .sync else .accum)) ∨
    (t.candidate = .frame ∧
      t.finish recon = t.toSearching.emit (buildFrame recon (Memory.read t.buf) t.cur.toNat)) ∨
    (∃ ev, ev ≠ .frame ∧ t.finish recon = t.toSearching.report ev) := by
  cases h : t.candidate
  case incomplete => exact .inl ⟨rfl, by simp [State.finish, h]⟩
  case frame => exact .inr (.inl ⟨rfl, by simp [State.finish, h]⟩)
  case cfgOk => exact .inr (.inr ⟨.cfgOk, by decide, by simp [State.finish, h]⟩)
  case cfgBad => exact .inr (.inr ⟨.dropCksum, by decide, by simp [State.finish, h]⟩)
  case short => exact .inr (.inr ⟨.dropShape, by decide, by simp [State.finish, h]⟩)
  case header => exact .inr (.inr ⟨.dropShape, by decide, by simp [State.finish, h]⟩)

/-- What `RxEdge` can do: an event alone, a candidate started, or a byte appended and the candidate finished. -/
theorem rxEdge_cases {recon : IdRecon} {i : Inputs} {s t : State} (h : rxEdge recon i s = .next t) :
    (∃ ev, ev ≠ .frame ∧ t = s.report ev) ∨
    (s.sync = false ∧ t = s.startCandidate.report .sync) ∨
    (s.sync = true ∧ s.cur.toNat < Config.bufDepth ∧ t = (s.storeByte i.rxByte).finish recon) := by
  cases hv : i.rxValid
  · rw [rxEdge_idle hv] at h
    cases h
    exact .inl ⟨.none, by decide, rfl⟩
  · cases hs : s.sync
    · rw [rxEdge_searching hv hs] at h
      cases h
      by_cases hb : i.rxByte = marker
      · exact .inr (.inl ⟨rfl, by rw [if_pos hb]⟩)
      · exact .inl ⟨.skip, by decide, by rw [if_neg hb]⟩
    · by_cases hc : s.cur.toNat < Config.bufDepth
      · rw [rxEdge_accumulating hv hs hc] at h
        cases h
        exact .inr (.inr ⟨rfl, hc, rfl⟩)
      · rw [rxEdge_beyond hv hs hc] at h
        cases h

/-! ### The transmit half -/

/-- What a transmit row does to the serializer. -/
inductive TxMove where
  /-- One byte leaves (R147). -/
  | advance
  /-- Only `tx_reject_q` is written (R146, R151, R152). -/
  | keep (reject : Bool)
  /-- A packet is accepted (R144, R145). -/
  | load (bytes : List Byte)

/-- The registers after a move. -/
def TxMove.apply (t : State) : TxMove → State
  | .advance => t.advanceIndex.setReject false
  | .keep r => t.setReject r
  | .load bytes => (t.loadPacket bytes).setReject false

/-- The move of an edge with `rst = 0`, for a serializer that is `busy` or not (R154). -/
def txMove (i : Inputs) (busy : Bool) : TxMove :=
  if busy then (if i.txReady then .advance else .keep false)
  else if i.cfgValid then .load (encodeConfig i.cfgSpeed i.cfgFtype i.cfgMode)
  else if i.txfValid then
    (if i.txfType = typeStandard ∨ i.txfType = typeExtended then
      .load (encodeFrame i.txfId i.txfType i.txfDlc i.txfData)
    else .keep true)
  else .keep false

/-- `TxEdge` makes the move of the edge. -/
theorem txEdge_eq_apply (i : Inputs) (t : State) : txEdge i t = (txMove i t.txBusy).apply t := by
  simp only [txEdge, txMove]
  split_ifs with hb hr he
  · simp [he, TxMove.apply, State.advanceIndex, State.setReject]
  · simp [he, TxMove.apply, State.advanceIndex, State.setReject]
  all_goals rfl

/-- A packet is accepted only by an idle serializer, and has 20 or 13 bytes. -/
theorem txMove_load {i : Inputs} {busy : Bool} {bytes : List Byte} (h : txMove i busy = .load bytes) :
    busy = false ∧ (bytes.length = 20 ∨ bytes.length = 13) := by
  unfold txMove at h
  split_ifs at h with hb
  · cases h
    exact ⟨by simpa using hb, .inl rfl⟩
  · cases h
    exact ⟨by simpa using hb, .inr rfl⟩

/-- A byte leaves only a busy serializer, and only a ready transport takes it. -/
theorem txMove_advance {i : Inputs} {busy : Bool} (h : txMove i busy = .advance) : busy = true ∧ i.txReady = true := by
  unfold txMove at h
  split_ifs at h with hb hr
  exact ⟨hb, hr⟩

/-- The type bits of the table's transmit rows, as the types of R42. -/
theorem txfType_cases (ty : BitVec 2) :
    (ty = typeStandard ∧ ty.getLsbD 1 = false ∧ ty.getLsbD 0 = false) ∨
    (ty = typeExtended ∧ ty.getLsbD 1 = false ∧ ty.getLsbD 0 = true) ∨
    (¬ (ty = typeStandard ∨ ty = typeExtended) ∧ ty.getLsbD 1 = true) := by
  revert ty; decide

/-- The transmit row of an edge makes the move of the edge, on any state whose serializer is as busy as the one that
selected the row. -/
theorem exec_txRow {i : Inputs} {s u : State} (hr : i.rst = false) (hb : u.txBusy = s.txBusy) :
    exec (txRow i s) u = .next (txEdge i u) := by
  rw [txEdge_eq_apply, hb, txRow_eq, txMove]
  cases s.txBusy
  · cases i.cfgValid
    · cases i.txfValid
      · simp [hr]; rfl
      · rcases txfType_cases i.txfType with ⟨h, h1, h0⟩ | ⟨h, h1, h0⟩ | ⟨h, h1⟩
        · simp [hr, h]; rfl
        · simp [hr, h]; rfl
        · simp [hr, h1, h]; rfl
    · simp [hr]; rfl
  · cases i.txReady <;> simp [hr] <;> rfl

/-- A move of the serializer keeps the receive side. -/
theorem TxMove.apply_sameReceive (t : State) (v : TxMove) : t.SameReceive (v.apply t) := by
  cases v <;> exact ⟨rfl, rfl, rfl, rfl, rfl, rfl, rfl, rfl, rfl⟩

/-- A move of the serializer keeps the script. -/
theorem TxMove.apply_sameScript (t : State) (v : TxMove) : t.SameScript (v.apply t) := by
  cases v <;> exact ⟨rfl, rfl⟩

/-! ### The receive half keeps the transmit side -/

/-- An event alone keeps the transmit side. -/
theorem State.report_sameTransmit (s : State) (ev : Event) : s.SameTransmit (s.report ev) := ⟨rfl, rfl, rfl, rfl, rfl⟩

/-- An event alone keeps the script. -/
theorem State.report_sameScript (s : State) (ev : Event) : s.SameScript (s.report ev) := ⟨rfl, rfl⟩

/-- The end of a candidate keeps the transmit side and the script. -/
theorem State.finish_sameTransmit_sameScript (recon : IdRecon) (t : State) :
    t.SameTransmit (t.finish recon) ∧ t.SameScript (t.finish recon) := by
  rcases t.finish_cases recon with ⟨-, h⟩ | ⟨-, h⟩ | ⟨ev, -, h⟩ <;> rw [h] <;>
    exact ⟨⟨rfl, rfl, rfl, rfl, rfl⟩, rfl, rfl⟩

/-- `RxEdge` keeps the transmit side and the script (R73). -/
theorem rxEdge_sameTransmit_sameScript {recon : IdRecon} {i : Inputs} {s t : State}
    (h : rxEdge recon i s = .next t) : s.SameTransmit t ∧ s.SameScript t := by
  rcases rxEdge_cases h with ⟨ev, -, rfl⟩ | ⟨-, rfl⟩ | ⟨-, -, rfl⟩
  · exact ⟨s.report_sameTransmit ev, s.report_sameScript ev⟩
  · exact ⟨⟨rfl, rfl, rfl, rfl, rfl⟩, rfl, rfl⟩
  · exact (s.storeByte i.rxByte).finish_sameTransmit_sameScript recon

/-! ### The edge -/

/-- An edge with `rst = 1` is `Reset` (R251). -/
theorem edgeWith_of_rst {recon : IdRecon} {i : Inputs} {s : State} (hr : i.rst = true) :
    edgeWith recon i s = .next s.resetBlock := by
  simp [edgeWith, hr, execWith, exec, execRst]

/-- An edge with `rst = 0` is `RxEdge` and `TxEdge` (R250). -/
theorem edgeWith_of_noRst {recon : IdRecon} {i : Inputs} {s : State} (hr : i.rst = false) :
    edgeWith recon i s = andThen (rxEdge recon i s) fun t => .next (txEdge i t) := by
  simp only [edgeWith, hr, Bool.false_eq_true, if_false, execWith_rxRow hr]
  cases h : rxEdge recon i s with
  | next u =>
    obtain ⟨⟨hb, -, -, -, -⟩, -⟩ := rxEdge_sameTransmit_sameScript h
    have hw : execWith recon (txRow i s) u = exec (txRow i s) u := by
      refine execWith_eq_exec recon _ u (fun b => ?_) fun l a b d t => ?_ <;>
        (rw [txRow_eq]; split_ifs <;> simp)
    rw [andThen_next, andThen_next, hw, exec_txRow hr hb]
  | fault r => rfl
  | refused r => rfl

/-- An edge with `rst = 1` of the block at its default. -/
theorem edge_of_rst {i : Inputs} {s : State} (hr : i.rst = true) : edge i s = .next s.resetBlock := by
  rw [← edgeWith_default, edgeWith_of_rst hr]

/-- An edge with `rst = 0` of the block at its default. -/
theorem edge_of_noRst {i : Inputs} {s : State} (hr : i.rst = false) :
    edge i s = andThen (rxEdge idRecon i s) fun t => .next (txEdge i t) := by
  rw [← edgeWith_default, edgeWith_of_noRst hr]

/-- What an edge with `rst = 0` can do. -/
theorem edge_eq_next {i : Inputs} {s t : State} (hr : i.rst = false) :
    edge i s = .next t ↔ ∃ u, rxEdge idRecon i s = .next u ∧ t = txEdge i u := by
  rw [edge_of_noRst hr, andThen_eq_next]
  simp only [Host.Outcome.next.injEq, eq_comm (a := t)]

/-- Moving the script on changes the script alone. -/
theorem State.fetched_eq_script (s : State) : ∃ rest, s.fetched = s.script rest := by
  unfold State.fetched
  split
  · exact ⟨_, rfl⟩
  · exact ⟨_, rfl⟩

end Sys2Proof.Machine
end

section
/-! The invariants of R25, R149, R190 and R42 along an edge: each half keeps its own part of `State.Inv`. -/

namespace Sys2Proof.Machine

/-! ### The transmit invariant -/

/-- A transfer that does not end the packet counts one more, with no wrap. -/
theorem advanceIndex_txIdx_toNat {s : State} (h : s.txIdx.toNat + 1 < s.txLen.toNat) :
    (s.advanceIndex).txIdx.toNat = s.txIdx.toNat + 1 := by
  have hne : ¬ s.txIdx.toNat + 1 = s.txLen.toNat := by omega
  have h1 : (1 : BitVec 5).toNat = 1 := rfl
  have hl := s.txLen.isLt
  rw [State.advanceIndex_txIdx, if_neg hne, BitVec.toNat_add, h1]
  omega

/-- A transfer keeps the bound of the index (R147, R149). -/
theorem advanceIndex_txInv {s : State} (h : s.TxInv) (hb : s.txBusy = true) : (s.advanceIndex).TxInv := by
  obtain ⟨hi, hl⟩ := h.1 hb
  by_cases he : s.txIdx.toNat + 1 = s.txLen.toNat
  · exact ⟨fun hb' => by simp [he] at hb', fun _ => by simp [he]⟩
  · refine ⟨fun _ => ⟨?_, hl⟩, fun hb' => by simp [he, hb] at hb'⟩
    rw [advanceIndex_txIdx_toNat (by omega), State.advanceIndex_txLen]
    omega

/-- A packet of 20 or 13 bytes starts within its bound (R144, R145). -/
theorem loadPacket_txInv {s : State} {bytes : List Byte} (h : bytes.length = 20 ∨ bytes.length = 13) :
    (s.loadPacket bytes).TxInv := by
  refine ⟨fun _ => ?_, fun hb => by simp at hb⟩
  rcases h with h | h <;> simp [h]

/-- The reject pulse is no part of the transmit invariant. -/
theorem setReject_txInv {s : State} (r : Bool) (h : s.TxInv) : (s.setReject r).TxInv := h

/-- `TxEdge` keeps the bound of the index (R149). -/
theorem txEdge_txInv {i : Inputs} {s : State} (h : s.TxInv) : (txEdge i s).TxInv := by
  rw [txEdge_eq_apply]
  cases hm : txMove i s.txBusy with
  | advance => exact setReject_txInv false (advanceIndex_txInv h (txMove_advance hm).1)
  | keep r => exact setReject_txInv r h
  | load bytes => exact setReject_txInv false (loadPacket_txInv (txMove_load hm).2)

/-- The transmit invariant speaks of the transmit registers. -/
theorem State.TxInv.of_sameTransmit {s t : State} (h : s.TxInv) (hs : s.SameTransmit t) : t.TxInv := by
  obtain ⟨hb, hi, hl, -, -⟩ := hs
  simpa only [State.TxInv, hb, hi, hl] using h

/-! ### The receive invariants -/

/-- A candidate of two bytes or more that is not complete is shorter than the length its byte 1 gives (R85, R173). -/
theorem incomplete_bounds {cell : Nat → Byte} {n : Nat} (hn : 2 ≤ n) (h : complete cell n = false) :
    (cell 1 = tag ∧ n ≤ 19) ∨ (cell 1 ≠ tag ∧ hiNibble (cell 1) = 0xC ∧ n ≤ (loNibble (cell 1)).toNat + 4) := by
  have hn' : ¬ n < 2 := by omega
  by_cases ht : cell 1 = tag
  · simp [complete, hn', headerClass, ht] at h
    exact .inl ⟨ht, by omega⟩
  · by_cases hd : hiNibble (cell 1) = 0xC
    · simp [complete, hn', headerClass, ht, hd] at h
      exact .inr ⟨ht, hd, by omega⟩
    · simp only [complete, if_neg hn', headerClass, if_neg ht, if_neg hd, Bool.true_eq_false] at h

/-- The candidate is incomplete only if `Complete` is false. -/
theorem State.complete_of_candidate_incomplete {t : State} (h : t.candidate = .incomplete) :
    complete (Memory.read t.buf) t.cur.toNat = false := by
  unfold State.candidate completionOf at h
  split_ifs at h with hc
  simpa using hc

/-- A byte that leaves the candidate incomplete keeps the bullets of R25 (R183). -/
theorem storeByte_demuxInv {b : Byte} {s : State} (h : s.DemuxInv) (hs : s.sync = true)
    (hi : (s.storeByte b).candidate = .incomplete) : (s.storeByte b).DemuxInv := by
  obtain ⟨-, h2, -⟩ := h
  obtain ⟨hc1, hc19, hm⟩ := h2 hs
  have hd : Config.bufDepth = 100 := rfl
  have hcur : (s.storeByte b).cur.toNat = s.cur.toNat + 1 := storeByte_cur_toNat (by omega)
  have hm' : Memory.read (s.storeByte b).buf 0 = marker := by
    rw [storeByte_read, if_neg (by omega), hm]
  have hlen := incomplete_bounds (by omega) (State.complete_of_candidate_incomplete hi)
  have hle : (s.storeByte b).cur.toNat ≤ 19 := by
    rcases hlen with ⟨-, hl⟩ | ⟨-, -, hl⟩
    · exact hl
    · have := (loNibble (Memory.read (s.storeByte b).buf 1)).isLt
      omega
  refine ⟨fun hf => ?_, fun _ => ⟨by omega, hle, hm'⟩, fun _ => hle, fun ⟨_, _, hx⟩ => ?_, fun _ => ?_⟩
  · rw [State.storeByte_sync, hs] at hf
    cases hf
  · rcases hlen with ⟨ht, -⟩ | ⟨-, -, hl⟩
    · exact absurd hx (ht ▸ hiNibble_tag)
    · exact hl
  · rcases hlen with ⟨ht, -⟩ | ⟨-, hx, -⟩
    · exact .inl ht
    · exact .inr hx

/-- In Searching the bullets of R25 ask for the cursor alone. -/
theorem demuxInv_of_searching {s : State} (hs : s.sync = false) (hc : s.cur = 0) : s.DemuxInv := by
  simp [State.DemuxInv, hs, hc]

/-- The marker alone meets the bullets of R25 (R182). -/
theorem startCandidate_demuxInv (s : State) : s.startCandidate.DemuxInv := by
  simp [State.DemuxInv]

/-- A write to one of the first 20 cells keeps the buffer's form (R190). -/
theorem write_bufInv {s t : State} {a : Nat} {b : Byte} (h : s.BufInv) (ha : a < 20)
    (ht : t.buf = Memory.write s.buf a b) : t.BufInv := by
  have hd : Config.bufDepth = 100 := rfl
  rw [State.BufInv, ht]
  exact ⟨Memory.wf_write _ _ _ h.1 (by omega), Memory.all_lt_write _ _ _ _ h.2 ha⟩

/-- An edge that emits no frame leaves the frame registers legal and `rxf_valid` down (R179). -/
theorem report_outInv {s : State} {ev : Event} (h : s.OutInv) (hev : ev ≠ .frame) : (s.report ev).OutInv :=
  ⟨h.1, h.2.1, by simp [hev]⟩

/-- A built frame has type `00` and a 16-bit identifier (R42, R176). -/
theorem emit_buildFrame_outInv (recon : IdRecon) (cell : Nat → Byte) (n : Nat) (s : State) :
    (s.emit (buildFrame recon cell n)).OutInv := by
  refine ⟨rfl, ?_, by simp⟩
  simp only [State.emit_rxfId, buildFrame, BitVec.toNat_setWidth]
  have := (recon (cell 2) (cell 3)).isLt
  omega

/-- The receive invariants: the demultiplexer's bullets, the buffer's form and the outputs. -/
def State.RxInv (s : State) : Prop := s.DemuxInv ∧ s.BufInv ∧ s.OutInv

/-- The end of an append keeps the receive invariants. -/
theorem finish_storeByte_rxInv {recon : IdRecon} {b : Byte} {s : State} (h : s.RxInv) (hs : s.sync = true) :
    ((s.storeByte b).finish recon).RxInv := by
  obtain ⟨hd, hb, ho⟩ := h
  obtain ⟨-, hc19, -⟩ := hd.2.1 hs
  have hb' : (s.storeByte b).BufInv := write_bufInv hb (by omega) (State.storeByte_buf s b)
  have ho' : ∀ ev, ev ≠ .frame → ((s.storeByte b).report ev).OutInv := fun _ => report_outInv (s := s.storeByte b) ho
  rcases (s.storeByte b).finish_cases recon with ⟨hi, h⟩ | ⟨-, h⟩ | ⟨ev, hev, h⟩ <;> rw [h]
  · exact ⟨storeByte_demuxInv hd hs hi, hb', ho' _ (by split_ifs <;> decide)⟩
  · exact ⟨demuxInv_of_searching rfl rfl, hb', emit_buildFrame_outInv _ _ _ _⟩
  · exact ⟨demuxInv_of_searching rfl rfl, hb', ho' ev hev⟩

/-- `RxEdge` keeps the receive invariants. -/
theorem rxEdge_rxInv {recon : IdRecon} {i : Inputs} {s t : State} (h : s.RxInv) (ht : rxEdge recon i s = .next t) :
    t.RxInv := by
  rcases rxEdge_cases ht with ⟨ev, hev, rfl⟩ | ⟨-, rfl⟩ | ⟨hs, -, rfl⟩
  · obtain ⟨hd, hb, ho⟩ := h
    exact ⟨hd, hb, report_outInv ho hev⟩
  · obtain ⟨-, hb, ho⟩ := h
    exact ⟨startCandidate_demuxInv s, write_bufInv hb (by omega) (State.startCandidate_buf s),
      report_outInv (s := s.startCandidate) ho (by decide)⟩
  · exact finish_storeByte_rxInv h hs

/-- The receive invariants speak of the receive registers. -/
theorem State.RxInv.of_sameReceive {s t : State} (h : s.RxInv) (hs : s.SameReceive t) : t.RxInv := by
  obtain ⟨h1, h2, h3, h4, h5, h6, -, -, h9⟩ := hs
  simpa only [State.RxInv, State.DemuxInv, State.BufInv, State.OutInv, h1, h2, h3, h4, h5, h6, h9] using h

/-! ### The edge and the step -/

/-- `TxEdge` keeps the receive side and the script. -/
theorem txEdge_sameReceive_sameScript (i : Inputs) (t : State) :
    t.SameReceive (txEdge i t) ∧ t.SameScript (txEdge i t) := by
  rw [txEdge_eq_apply]
  exact ⟨TxMove.apply_sameReceive t _, TxMove.apply_sameScript t _⟩

/-- Reset meets every invariant, and keeps the buffer's form. -/
theorem resetBlock_inv {s : State} (h : s.BufInv) : s.resetBlock.Inv :=
  ⟨demuxInv_of_searching rfl rfl, by simp [State.TxInv], h, by simp [State.OutInv, typeStandard]⟩

/-- An edge from a legal state leaves a legal state. -/
theorem edge_inv {i : Inputs} {s t : State} (h : s.Inv) (ht : edge i s = .next t) : t.Inv := by
  obtain ⟨hd, htx, hb, ho⟩ := h
  cases hr : i.rst
  · obtain ⟨u, hu, rfl⟩ := (edge_eq_next hr).1 ht
    have hsame := (rxEdge_sameTransmit_sameScript hu).1
    obtain ⟨hd', hb', ho'⟩ :=
      (rxEdge_rxInv ⟨hd, hb, ho⟩ hu).of_sameReceive (txEdge_sameReceive_sameScript i u).1
    exact ⟨hd', txEdge_txInv (htx.of_sameTransmit hsame), hb', ho'⟩
  · rw [edge_of_rst hr] at ht
    cases ht
    exact resetBlock_inv hb

/-- The invariants do not speak of the script. -/
theorem State.Inv.fetched {s : State} (h : s.Inv) : s.fetched.Inv := by
  obtain ⟨rest, hf⟩ := s.fetched_eq_script
  rw [hf]
  exact h

/-- Settles O48: the receive half keeps its invariants by what the candidate is after the append, the transmit half by the
move it makes. -/
theorem stepKeepsTheInvariants : Obligations.StepKeepsTheInvariants :=
  fun _ _ h ht => edge_inv h.fetched ht

/-- Settles O2: the reset state is one that reset leaves, with no cell listed. -/
theorem resetStateIsLegal : Obligations.ResetStateIsLegal :=
  ⟨resetBlock_inv (s := State.reset) ⟨reset_buf_wf, rfl⟩, rfl⟩

/-! ### The frame registers -/

/-- The end of a candidate leaves the frame registers alone unless it emits a frame (R70, R179). -/
theorem State.finish_sameFrameFields {recon : IdRecon} {t : State} (h : (t.finish recon).rxfValid = false) :
    t.SameFrameFields (t.finish recon) := by
  rcases t.finish_cases recon with ⟨-, hf⟩ | ⟨-, hf⟩ | ⟨ev, -, hf⟩ <;> rw [hf] at h ⊢
  · exact ⟨rfl, rfl, rfl, rfl⟩
  · cases h
  · exact ⟨rfl, rfl, rfl, rfl⟩

/-- `RxEdge` leaves the frame registers alone unless it emits a frame. -/
theorem rxEdge_sameFrameFields {recon : IdRecon} {i : Inputs} {s t : State} (ht : rxEdge recon i s = .next t)
    (hv : t.rxfValid = false) : s.SameFrameFields t := by
  rcases rxEdge_cases ht with ⟨ev, -, rfl⟩ | ⟨-, rfl⟩ | ⟨-, -, rfl⟩
  · exact ⟨rfl, rfl, rfl, rfl⟩
  · exact ⟨rfl, rfl, rfl, rfl⟩
  · exact State.finish_sameFrameFields (t := s.storeByte i.rxByte) hv

/-- Settles O46: only the receive half writes the frame registers, and only where it emits. -/
theorem frameRegistersHold : Obligations.FrameRegistersHold := by
  intro i s t hr ht hv
  obtain ⟨u, hu, rfl⟩ := (edge_eq_next hr).1 ht
  obtain ⟨-, -, -, hvalid, h1, h2, h3, h4, -⟩ := (txEdge_sameReceive_sameScript i u).1
  obtain ⟨g1, g2, g3, g4⟩ := rxEdge_sameFrameFields hu (hvalid ▸ hv)
  exact ⟨h1.trans g1, h2.trans g2, h3.trans g3, h4.trans g4⟩

end Sys2Proof.Machine
end

section
/-! What the rows leave unchanged (R73, R179), and where the appending rows fault (log 5). -/

namespace Sys2Proof.Machine

/-! ### The frame of the receive rows -/

/-- The transmit side, the script and every buffer cell but `cell` are as before. -/
def State.KeptBut (cell : Option Nat) (s t : State) : Prop :=
  s.SameTransmit t ∧ s.SameScript t ∧ (∀ k, cell ≠ some k → Memory.read t.buf k = Memory.read s.buf k)

/-- One cell written, and nothing of the transmit side or the script. -/
theorem State.keptBut_of_write {s t : State} {a : Nat} {b : Byte} (htx : s.SameTransmit t) (hsc : s.SameScript t)
    (hb : t.buf = Memory.write s.buf a b) : s.KeptBut (some a) t :=
  ⟨htx, hsc, fun _ hk => hb ▸ Memory.read_write_ne _ _ fun e => hk (congrArg some e.symm)⟩

/-- A byte discarded, or none: no cell is stored to. -/
theorem report_keptBut (s : State) (ev : Event) : s.KeptBut none (s.report ev) ∧ s.SameFrameFields (s.report ev) :=
  ⟨⟨s.report_sameTransmit ev, s.report_sameScript ev, fun _ _ => rfl⟩, rfl, rfl, rfl, rfl⟩

/-- The start of a candidate stores to cell 0. -/
theorem startCandidate_report_keptBut (s : State) (ev : Event) :
    s.KeptBut (some 0) (s.startCandidate.report ev) ∧ s.SameFrameFields (s.startCandidate.report ev) :=
  ⟨State.keptBut_of_write (b := marker) ⟨rfl, rfl, rfl, rfl, rfl⟩ ⟨rfl, rfl⟩ rfl, rfl, rfl, rfl, rfl⟩

/-- An append that ends the candidate stores to the cell at the cursor. -/
theorem dropAfter_keptBut {ev : Event} {b : Byte} {s t : State} (h : dropAfter ev b s = .next t) :
    s.KeptBut (some s.cur.toNat) t ∧ s.SameFrameFields t := by
  obtain ⟨-, rfl⟩ := dropAfter_eq_next.1 h
  exact ⟨State.keptBut_of_write ⟨rfl, rfl, rfl, rfl, rfl⟩ ⟨rfl, rfl⟩ rfl, rfl, rfl, rfl, rfl⟩

/-- An append that holds the candidate stores to the cell at the cursor. -/
theorem appendAfter_keptBut {b : Byte} {s t : State} (h : appendAfter b s = .next t) :
    s.KeptBut (some s.cur.toNat) t ∧ s.SameFrameFields t := by
  obtain ⟨-, rfl⟩ := appendAfter_eq_next.1 h
  exact ⟨State.keptBut_of_write ⟨rfl, rfl, rfl, rfl, rfl⟩ ⟨rfl, rfl⟩ rfl, rfl, rfl, rfl, rfl⟩

/-- An append that emits a frame stores to the cell at the cursor. -/
theorem emitAfter_keptBut {recon : IdRecon} {b : Byte} {s t : State} (h : emitAfter recon b s = .next t) :
    s.KeptBut (some s.cur.toNat) t := by
  obtain ⟨-, rfl⟩ := emitAfter_eq_next.1 h
  exact State.keptBut_of_write ⟨rfl, rfl, rfl, rfl, rfl⟩ ⟨rfl, rfl⟩ rfl

/-- The receive rows and the header rows that emit no frame: the cell stored to is that of `cellStored`. -/
theorem exec_receiveRow_keptBut {i : Instr} {b : Byte} {l : BitVec 4} {s t : State}
    (hi : i ∈ [Instr.rxIdle, .rxSkip b, .rxSync, .rxAccum b, .rxCfgOk b, .rxDropCksum b, .rxDropShort b,
      .rxDropHdr b, .hdrConfig, .hdrData l, .hdrOther b])
    (h : exec i s = .next t) : s.KeptBut (cellStored s i) t ∧ s.SameFrameFields t := by
  simp only [List.mem_cons, List.not_mem_nil, or_false] at hi
  rcases hi with rfl | rfl | rfl | rfl | rfl | rfl | rfl | rfl | rfl | rfl | rfl
  · cases h; exact report_keptBut s .none
  · cases h; exact report_keptBut s .skip
  · cases h; exact startCandidate_report_keptBut s .sync
  · exact appendAfter_keptBut h
  · exact dropAfter_keptBut h
  · exact dropAfter_keptBut h
  · exact dropAfter_keptBut h
  · exact dropAfter_keptBut h
  · exact appendAfter_keptBut h
  · exact appendAfter_keptBut h
  · exact dropAfter_keptBut h

/-- Settles O12: every row stores to one cell at most, and all but `RX.FRAME` leave the frame registers. -/
theorem receiveRowsFrame : Obligations.ReceiveRowsFrame := by
  intro i b l s t hi h
  suffices hk : s.KeptBut (cellStored s i) t ∧ (i ≠ .rxFrame b → s.SameFrameFields t) by
    obtain ⟨⟨htx, hsc, hm⟩, hf⟩ := hk
    exact ⟨htx, hsc, hm, hf⟩
  by_cases hfr : i = .rxFrame b
  · subst hfr
    exact ⟨emitAfter_keptBut h, fun hne => absurd rfl hne⟩
  · have hi' : i ∈ [Instr.rxIdle, .rxSkip b, .rxSync, .rxAccum b, .rxCfgOk b, .rxDropCksum b, .rxDropShort b,
        .rxDropHdr b, .hdrConfig, .hdrData l, .hdrOther b] := by simpa [hfr] using hi
    obtain ⟨hk, hf⟩ := exec_receiveRow_keptBut hi' h
    exact ⟨hk, fun _ => hf⟩

/-! ### The frame of the transmit rows -/

/-- A transmit row or an outbound packet row makes one move of the serializer: an acceptance for a request or a packet,
and no other row's. -/
theorem exec_transmitRow {i : Instr} {x y z c : Byte} {id : BitVec 32} {dlc : BitVec 4} {data : BitVec 64} {e : Bool}
    (s : State)
    (hi : i ∈ [Instr.txCfg x y z, .txFrameStd id dlc data, .txFrameExt id dlc data, .txReject e, .txXfer, .txWait,
      .txIdle, .pktCfg x y z c, .pktFrame e dlc x y data]) :
    ∃ v : TxMove, exec i s = .next (v.apply s) ∧
      (i ∈ [Instr.txReject e, .txXfer, .txWait, .txIdle] → ∀ bytes, v ≠ .load bytes) ∧
      (i ∈ [Instr.txReject e, .txWait, .txIdle] → ∃ r, v = .keep r) ∧
      (i ∈ [Instr.txFrameStd id dlc data, .txFrameExt id dlc data, .pktFrame e dlc x y data] →
        ∃ bytes, bytes.length = 13 ∧ v = .load bytes) := by
  simp only [List.mem_cons, List.not_mem_nil, or_false] at hi
  rcases hi with rfl | rfl | rfl | rfl | rfl | rfl | rfl | rfl | rfl
  · exact ⟨.load (encodeConfig x y z), rfl, by simp⟩
  · exact ⟨.load (encodeFrame id typeStandard dlc data), rfl, by simp⟩
  · exact ⟨.load (encodeFrame id typeExtended dlc data), rfl, by simp⟩
  · exact ⟨.keep true, rfl, by simp⟩
  · exact ⟨.advance, rfl, by simp⟩
  · exact ⟨.keep false, rfl, by simp⟩
  · exact ⟨.keep false, rfl, by simp⟩
  · exact ⟨.load (pktCfgBytes x y z c), rfl, by simp⟩
  · exact ⟨.load (pktFrameBytes e dlc x y data), rfl, by simp [pktFrameBytes]⟩

/-- Only an acceptance writes the packet register and its length (R146, R150 to R152). -/
theorem TxMove.apply_txPkt_txLen {v : TxMove} (s : State) (h : ∀ bytes, v ≠ .load bytes) :
    (v.apply s).txPkt = s.txPkt ∧ (v.apply s).txLen = s.txLen := by
  cases v with
  | advance => exact ⟨rfl, rfl⟩
  | keep r => exact ⟨rfl, rfl⟩
  | load bytes => exact absurd rfl (h bytes)

/-- An accepted packet leaves the bytes beyond its length as they were (R150). -/
theorem storePacket_beyond {bytes : List Byte} (old : Vector Byte 20) {k : Fin 20} (h : bytes.length ≤ k.val) :
    (storePacket bytes old)[k] = old[k] := by
  rw [storePacket_get, List.getD_eq_getElem?_getD, List.getElem?_eq_none h, Option.getD_none]

/-- Settles O29: each row is one move of the serializer, and no move touches the receive side or the script. -/
theorem transmitRowsFrame : Obligations.TransmitRowsFrame := by
  intro i x y z c id dlc data e s t hi h
  obtain ⟨v, hv, hload, hkeep, hframe⟩ := exec_transmitRow s hi
  obtain rfl : v.apply s = t := by simpa [hv] using h
  have hrx := v.apply_sameReceive s
  refine ⟨hrx, v.apply_sameScript s, fun k => ?_, fun hm => TxMove.apply_txPkt_txLen s (hload hm), fun hm => ?_,
    fun hm k hk => ?_⟩
  · obtain ⟨-, -, hb, -⟩ := hrx
    rw [hb]
  · obtain ⟨r, rfl⟩ := hkeep hm
    exact ⟨rfl, rfl⟩
  · obtain ⟨bytes, hl, rfl⟩ := hframe hm
    exact storePacket_beyond s.txPkt (hl ▸ hk)

/-! ### The fault of an append -/

/-- Every row that appends one byte is the append followed by an update of the registers. -/
theorem exec_appendingRow {i : Instr} {b : Byte} {l : BitVec 4} (s : State)
    (hi : i ∈ [Instr.rxAccum b, .rxCfgOk b, .rxDropCksum b, .rxFrame b, .rxDropShort b, .rxDropHdr b, .hdrConfig,
      .hdrData l, .hdrOther b]) :
    ∃ (f : State → State) (a : Byte), exec i s = andThen (storeAtCursor a s) fun u => .next (f u) := by
  simp only [List.mem_cons, List.not_mem_nil, or_false] at hi
  rcases hi with rfl | rfl | rfl | rfl | rfl | rfl | rfl | rfl | rfl <;> exact ⟨_, _, rfl⟩

/-- Settles O14: the append decides whether the row goes on; the inbound packet faults at its first byte. -/
theorem appendOutsideTheBufferFaults : Obligations.AppendOutsideTheBufferFaults := by
  have hd : Config.bufDepth = 100 := rfl
  refine ⟨fun i b l s hi => ?_, fun l a b d tr s hs hc => ?_⟩
  · obtain ⟨f, a, hf⟩ := exec_appendingRow s hi
    refine ⟨fun hc => ?_, fun hc => ⟨f (s.storeByte a), ?_⟩⟩
    · rw [hf, storeAtCursor_of_ge (by omega), andThen_fault]
    · rw [hf, storeAtCursor_of_lt (by omega), andThen_next]
  · show andThen (consumeByte idRecon marker s) _ = _
    rw [consumeByte_beyond hs (by omega), andThen_fault]

end Sys2Proof.Machine
end

section
/-! What can never be seen never matters (R24, R28, R62, R150): an edge on two states that differ in hidden bytes alone ends
in two such states. The script is kept apart here, since no edge reads it. -/

namespace Sys2Proof.Machine

/-! ### Hidden parts -/

/-- The parts of a state that an edge does not look at, or not beyond the cursor and the packet in flight. -/
structure Hidden where
  buf : Memory
  txPkt : Vector Byte 20
  stim : List Stimulus
  edges : Nat

/-- The state with other hidden parts. -/
def State.withHidden (s : State) (h : Hidden) : State :=
  { s with buf := h.buf, txPkt := h.txPkt, stim := h.stim, edges := h.edges }

/-- The hidden parts agree with the state on what can be seen: the cells below the cursor, and the bytes of the packet in
flight. -/
def State.Hides (s : State) (h : Hidden) : Prop :=
  (∀ k, k < s.cur.toNat → Memory.read s.buf k = Memory.read h.buf k) ∧
  (s.txBusy = true → ∀ k : Fin 20, k.val < s.txLen.toNat → s.txPkt[k] = h.txPkt[k])

/-- Two states that differ in hidden parts alone. -/
def State.Alike (s t : State) : Prop := ∃ h, s.Hides h ∧ t = s.withHidden h

/-- `SameVisible` is `Alike` with the same script. -/
theorem State.sameVisible_iff {s t : State} : s.SameVisible t ↔ s.Alike t ∧ s.SameScript t := by
  constructor
  · rintro ⟨hc, hp, ht⟩
    exact ⟨⟨⟨t.buf, t.txPkt, s.stim, s.edges⟩, ⟨hc, hp⟩, ht⟩, by rw [ht], by rw [ht]⟩
  · rintro ⟨⟨h, ⟨hc, hp⟩, rfl⟩, hstim, hedges⟩
    obtain ⟨m, p, st, e⟩ := h
    cases hstim
    cases hedges
    exact ⟨hc, hp, rfl⟩

/-- The script is hidden. -/
theorem State.alike_script (s : State) (rest : List Stimulus) : s.Alike (s.script rest) :=
  ⟨⟨s.buf, s.txPkt, rest, s.edges + 1⟩, ⟨fun _ _ => rfl, fun _ _ _ => rfl⟩, rfl⟩

/-- Moving both scripts on keeps the states alike. -/
theorem State.Alike.scripts {s t : State} (h : s.Alike t) (r r' : List Stimulus) : (s.script r).Alike (t.script r') := by
  obtain ⟨h, hh, rfl⟩ := h
  exact ⟨⟨h.buf, h.txPkt, r', h.edges + 1⟩, hh, rfl⟩

/-! ### The candidate is read below the cursor -/

/-- `Sum8` reads its own cells. -/
theorem sum8_congr {c d : Nat → Byte} {lo hi : Nat} (h : ∀ k, k ≤ hi → c k = d k) : sum8 c lo hi = sum8 d lo hi := by
  refine List.foldl_ext _ _ _ fun a k hk => ?_
  have : k ≤ hi := by
    have := List.mem_range'_1.1 hk
    omega
  rw [h k this]

/-- `Complete` reads no cell at or above the cursor. -/
theorem complete_congr {c d : Nat → Byte} {n : Nat} (h : ∀ k, k < n → c k = d k) : complete c n = complete d n := by
  by_cases hn : n < 2
  · simp only [complete, if_pos hn]
  · simp only [complete, if_neg hn, h 1 (by omega)]

/-- What a candidate is depends on no cell at or above the cursor (R62). -/
theorem completionOf_congr {c d : Nat → Byte} {n : Nat} (h : ∀ k, k < n → c k = d k) :
    completionOf c n = completionOf d n := by
  by_cases hn : n < 2
  · simp [completionOf, complete, hn]
  · have hsum : n = 20 → checksumOk c = checksumOk d := fun h20 => by
      rw [checksumOk, checksumOk, sum8_congr fun k hk => h k (by omega), h 19 (by omega)]
    by_cases h20 : n = 20
    · simp only [completionOf, complete_congr h, h 0 (by omega), h 1 (by omega), hsum h20]
    · simp only [completionOf, complete_congr h, h 0 (by omega), h 1 (by omega), h20, false_and, if_false]

/-- A frame is built from cells below the cursor (R62, R177). -/
theorem buildFrame_congr {recon : IdRecon} {c d : Nat → Byte} {n : Nat} (hn : 6 ≤ n) (h : ∀ k, k < n → c k = d k) :
    buildFrame recon c n = buildFrame recon d n := by
  have hpay : ∀ k, payloadByte c (min (n - 5) 8) k = payloadByte d (min (n - 5) 8) k := by
    intro k
    unfold payloadByte
    split_ifs with hk
    · exact h _ (by omega)
    · rfl
  simp only [buildFrame, hpay, h 1 (by omega), h 2 (by omega), h 3 (by omega)]

/-- A frame has six bytes at least. -/
theorem six_le_of_frame {cell : Nat → Byte} {n : Nat} (h : completionOf cell n = .frame) : 6 ≤ n := by
  unfold completionOf at h
  split_ifs at h with _ _ _ hf
  exact hf.1

/-! ### The receive half -/

/-- Two outcomes that go on to alike states. -/
theorem outcomesAgree_next {r : State → State → Prop} {s t : State} (h : r s t) :
    outcomesAgree r (.next s) (.next t) := h

/-- Sequences of outcomes that agree. -/
theorem outcomesAgree_andThen {q r : State → State → Prop} {o o' : Host.Outcome State Fault Refusal}
    {f f' : State → Host.Outcome State Fault Refusal} (h : outcomesAgree q o o')
    (hf : ∀ a b, q a b → outcomesAgree r (f a) (f' b)) : outcomesAgree r (andThen o f) (andThen o' f') :=
  match o, o', h with
  | .next a, .next b, h => hf a b h
  | .fault _, .fault _, h => h
  | .refused _, .refused _, h => h

/-- Two outcomes that agree go on together, or stop for the same reason. -/
theorem outcomesAgree_cases {r : State → State → Prop} {o o' : Host.Outcome State Fault Refusal}
    (h : outcomesAgree r o o') :
    (∃ s t, o = .next s ∧ o' = .next t ∧ r s t) ∨ (∃ a, o = .fault a ∧ o' = .fault a) ∨
    (∃ a, o = .refused a ∧ o' = .refused a) :=
  match o, o', h with
  | .next s, .next t, h => .inl ⟨s, t, rfl, rfl, h⟩
  | .fault a, .fault _, h => .inr (.inl ⟨a, rfl, congrArg _ h.symm⟩)
  | .refused a, .refused _, h => .inr (.inr ⟨a, rfl, congrArg _ h.symm⟩)

/-- An update that looks at no register keeps the states alike. -/
theorem State.Alike.report {s t : State} (h : s.Alike t) (ev : Event) : (s.report ev).Alike (t.report ev) := by
  obtain ⟨h, hh, rfl⟩ := h
  exact ⟨h, hh, rfl⟩

theorem State.Alike.startCandidate {s t : State} (h : s.Alike t) : s.startCandidate.Alike t.startCandidate := by
  obtain ⟨h, ⟨-, hp⟩, rfl⟩ := h
  refine ⟨{ h with buf := Memory.write h.buf 0 marker }, ⟨fun k hk => ?_, hp⟩, rfl⟩
  have : k = 0 := Nat.lt_one_iff.1 hk
  simp [this]

theorem State.Alike.storeByte {s t : State} (h : s.Alike t) (b : Byte) (hc : s.cur.toNat < Config.bufDepth) :
    (s.storeByte b).Alike (t.storeByte b) := by
  obtain ⟨h, ⟨hm, hp⟩, rfl⟩ := h
  refine ⟨{ h with buf := Memory.write h.buf s.cur.toNat b }, ⟨fun k hk => ?_, hp⟩, rfl⟩
  rw [storeByte_cur_toNat hc] at hk
  rw [storeByte_read, Memory.read_write]
  split_ifs with he
  · rfl
  · exact hm k (by omega)

theorem State.Alike.toSearching {s t : State} (h : s.Alike t) : s.toSearching.Alike t.toSearching := by
  obtain ⟨h, ⟨-, hp⟩, rfl⟩ := h
  exact ⟨h, ⟨fun k hk => absurd hk (Nat.not_lt_zero k), hp⟩, rfl⟩

theorem State.Alike.emit {s t : State} (h : s.Alike t) (f : CanFrame) : (s.emit f).Alike (t.emit f) := by
  obtain ⟨h, hh, rfl⟩ := h
  exact ⟨h, hh, rfl⟩

/-- The end of a candidate: what it is, and the frame it holds, are read below the cursor. -/
theorem State.Alike.finish {s t : State} (h : s.Alike t) (recon : IdRecon) : (s.finish recon).Alike (t.finish recon) := by
  have hcur : t.cur = s.cur := by
    obtain ⟨h, -, rfl⟩ := h
    rfl
  have hcell : ∀ k, k < s.cur.toNat → Memory.read s.buf k = Memory.read t.buf k := by
    obtain ⟨h, ⟨hm, -⟩, rfl⟩ := h
    exact hm
  have hcand : t.candidate = s.candidate := by
    rw [State.candidate, State.candidate, hcur, completionOf_congr hcell]
  unfold State.finish
  rw [hcand, hcur]
  cases hk : s.candidate
  case frame =>
    rw [← buildFrame_congr (six_le_of_frame hk) hcell]
    exact h.toSearching.emit _
  case incomplete => exact h.report _
  all_goals exact h.toSearching.report _

/-- `RxEdge` on alike states. -/
theorem State.Alike.rxEdge {s t : State} (h : s.Alike t) (recon : IdRecon) (i : Inputs) :
    outcomesAgree State.Alike (rxEdge recon i s) (rxEdge recon i t) := by
  have hsync : t.sync = s.sync := by
    obtain ⟨h, -, rfl⟩ := h
    rfl
  have hcur : t.cur = s.cur := by
    obtain ⟨h, -, rfl⟩ := h
    rfl
  cases hv : i.rxValid
  · rw [rxEdge_idle hv, rxEdge_idle hv]
    exact h.report .none
  · cases hs : s.sync
    · rw [rxEdge_searching hv hs, rxEdge_searching hv (hsync.trans hs)]
      by_cases hb : i.rxByte = marker
      · rw [if_pos hb, if_pos hb]
        exact h.startCandidate.report .sync
      · rw [if_neg hb, if_neg hb]
        exact h.report .skip
    · by_cases hc : s.cur.toNat < Config.bufDepth
      · rw [rxEdge_accumulating hv hs hc, rxEdge_accumulating hv (hsync.trans hs) (hcur ▸ hc)]
        exact (h.storeByte i.rxByte hc).finish recon
      · rw [rxEdge_beyond hv hs hc, rxEdge_beyond hv (hsync.trans hs) (hcur ▸ hc)]
        exact rfl

/-! ### The transmit half -/

/-- The bytes of an accepted packet are its own; those before it stay hidden (R150). -/
theorem loadPacket_alike {s t : State} (h : s.Alike t) (bytes : List Byte) :
    (s.loadPacket bytes).Alike (t.loadPacket bytes) := by
  obtain ⟨h, ⟨hm, -⟩, rfl⟩ := h
  refine ⟨{ h with txPkt := storePacket bytes h.txPkt }, ⟨hm, fun _ k hk => ?_⟩, rfl⟩
  have hk' : k.val < bytes.length := by
    rw [State.loadPacket_txLen, BitVec.toNat_ofNat] at hk
    omega
  rw [State.loadPacket_txPkt, storePacket_get, storePacket_get, List.getD_eq_getElem _ _ hk',
    List.getD_eq_getElem _ _ hk']

theorem State.Alike.setReject {s t : State} (h : s.Alike t) (r : Bool) : (s.setReject r).Alike (t.setReject r) := by
  obtain ⟨h, hh, rfl⟩ := h
  exact ⟨h, hh, rfl⟩

theorem State.Alike.advanceIndex {s t : State} (h : s.Alike t) : s.advanceIndex.Alike t.advanceIndex := by
  obtain ⟨h, ⟨hm, hp⟩, rfl⟩ := h
  refine ⟨h, ⟨hm, fun hb => hp ?_⟩, rfl⟩
  rw [State.advanceIndex_txBusy] at hb
  split_ifs at hb
  exact hb

/-- `TxEdge` on alike states. -/
theorem State.Alike.txEdge {s t : State} (h : s.Alike t) (i : Inputs) : (txEdge i s).Alike (txEdge i t) := by
  have hbusy : t.txBusy = s.txBusy := by
    obtain ⟨h, -, rfl⟩ := h
    rfl
  rw [txEdge_eq_apply, txEdge_eq_apply, hbusy]
  cases txMove i s.txBusy with
  | advance => exact h.advanceIndex.setReject false
  | keep r => exact h.setReject r
  | load bytes => exact (loadPacket_alike h bytes).setReject false

/-! ### The edge and the step -/

theorem State.Alike.resetBlock {s t : State} (h : s.Alike t) : s.resetBlock.Alike t.resetBlock := by
  obtain ⟨h, -, rfl⟩ := h
  exact ⟨h, ⟨fun k hk => absurd hk (Nat.not_lt_zero k), fun hb => by cases hb⟩, rfl⟩

/-- An edge on alike states stops alike, or ends in alike states. -/
theorem State.Alike.edge {s t : State} (h : s.Alike t) (i : Inputs) :
    outcomesAgree State.Alike (edge i s) (edge i t) := by
  cases hr : i.rst
  · rw [edge_of_noRst hr, edge_of_noRst hr]
    exact outcomesAgree_andThen (h.rxEdge idRecon i) fun a b hab => outcomesAgree_next (hab.txEdge i)
  · rw [edge_of_rst hr, edge_of_rst hr]
    exact h.resetBlock

/-- No edge touches the script. -/
theorem edge_sameScript {i : Inputs} {s t : State} (h : edge i s = .next t) : s.SameScript t := by
  cases hr : i.rst
  · obtain ⟨u, hu, rfl⟩ := (edge_eq_next hr).1 h
    obtain ⟨h1, h2⟩ := (rxEdge_sameTransmit_sameScript hu).2
    obtain ⟨g1, g2⟩ := (txEdge_sameReceive_sameScript i u).2
    exact ⟨g1.trans h1, g2.trans h2⟩
  · rw [edge_of_rst hr] at h
    cases h
    exact ⟨rfl, rfl⟩

/-- Two states that look the same take the same inputs and move the script on alike. -/
theorem State.SameVisible.fetched {s t : State} (h : s.SameVisible t) :
    t.nextInputs = s.nextInputs ∧ s.fetched.SameVisible t.fetched := by
  obtain ⟨ha, hstim, hedges⟩ := State.sameVisible_iff.1 h
  have hbusy : t.txBusy = s.txBusy := by
    obtain ⟨h, -, rfl⟩ := ha
    rfl
  refine ⟨by simp only [State.nextInputs, hbusy, hstim, hedges], ?_⟩
  have hf : ∀ rest, (s.script rest).SameVisible (t.script rest) := fun rest =>
    State.sameVisible_iff.2 ⟨ha.scripts rest rest, rfl, by simp [hedges]⟩
  simp only [State.fetched, hbusy, hstim]
  split
  · exact hf _
  · exact hf _

/-- The outputs show the byte at the index of the packet in flight, and no hidden part (R148). -/
theorem State.Alike.outputs_eq {s t : State} (h : s.Alike t) (htx : s.TxInv) (i : Inputs) :
    outputs i s = outputs i t := by
  obtain ⟨h, ⟨-, hp⟩, rfl⟩ := h
  have hbyte : txByte (s.withHidden h) = txByte s := by
    cases hb : s.txBusy
    · simp [txByte, State.withHidden, hb]
    · obtain ⟨hi, hl⟩ := htx.1 hb
      have h20 : s.txIdx.toNat < 20 := by
        rcases hl with hl | hl <;> rw [hl] at hi <;> simp at hi <;> omega
      have := hp hb ⟨s.txIdx.toNat, h20⟩ (by show s.txIdx.toNat < _; omega)
      simpa [txByte, State.withHidden, hb, h20] using this.symm
  show outputs i s = { outputs i s with txByte := txByte (s.withHidden h) }
  rw [hbyte]
  rfl

/-- Settles O50: the outputs and both halves of an edge read the buffer below the cursor and the packet below its length. -/
theorem unobservableBytesStayUnobservable : Obligations.UnobservableBytesStayUnobservable := by
  intro s t htx h
  refine ⟨(State.sameVisible_iff.1 h).1.outputs_eq htx, ?_⟩
  obtain ⟨hin, hf⟩ := h.fetched
  obtain ⟨ha, hstim, hedges⟩ := State.sameVisible_iff.1 hf
  rw [step, step, hin]
  rcases outcomesAgree_cases (ha.edge s.nextInputs) with ⟨u, v, hu, hv, huv⟩ | ⟨a, hu, hv⟩ | ⟨a, hu, hv⟩ <;>
    rw [hu, hv]
  · obtain ⟨hu1, hu2⟩ := edge_sameScript hu
    obtain ⟨hv1, hv2⟩ := edge_sameScript hv
    exact State.sameVisible_iff.2 ⟨huv, hv1.trans (hstim.trans hu1.symm), hv2.trans (hedges.trans hu2.symm)⟩
  · exact rfl
  · exact rfl

end Sys2Proof.Machine
end

section
/-! The host's session (R233, R253, R260, R261): the duties along the driven inputs, one lemma per stretch of the script, from
the last stretch back to the first. -/

namespace Sys2Proof.Machine

/-! ### The duties along the driven inputs -/

/-- The duties do not look at hidden parts: the ready signals and the last transfer are those of the serializer's index. -/
theorem keepsDuties_of_alike {s t : State} (h : s.Alike t) (p : HostParams) (m : HostMemory)
    (is : List Inputs) : keepsDuties p m is s = keepsDuties p m is t := by
  induction is generalizing m s t with
  | nil => rfl
  | cons i is ih =>
    have hafter : m.after p i t = m.after p i s := by
      obtain ⟨h, -, rfl⟩ := h
      rfl
    rcases outcomesAgree_cases (h.edge i) with ⟨u, v, hu, hv, huv⟩ | ⟨a, hu, hv⟩ | ⟨a, hu, hv⟩
    · simp only [keepsDuties, hafter, hu, hv, ih huv]
    · simp only [keepsDuties, hu, hv]
    · simp only [keepsDuties, hu, hv]

/-- The host keeps every duty at every edge that the script drives from here. -/
def Dutiful (p : HostParams) (m : HostMemory) (s : State) : Prop :=
  ∀ n, keepsDuties p m (drivenInputs n s) s = true

/-- The script drives these statements next, as far as the next edge shows: an exhausted statement before them makes no
difference. -/
def State.Drives (s : State) (script : List Stimulus) : Prop := fetch s.txBusy s.stim = fetch s.txBusy script

theorem State.drives_of_stim {s : State} {script : List Stimulus} (h : s.stim = script) : s.Drives script := by
  rw [State.Drives, h]

/-- The inputs that the script gives, and the state with the script moved on. -/
theorem State.Drives.next {s : State} {i : Inputs} {script rest : List Stimulus} (hs : s.Drives script)
    (hf : fetch s.txBusy script = some (i, rest)) : s.nextInputs = i ∧ s.fetched = s.script rest := by
  rw [State.Drives, hf] at hs
  exact ⟨by rw [State.nextInputs, hs], by rw [State.fetched, hs]⟩

/-- A run of `n + 1` driven edges is dutiful if its first edge and the `n` after it are. -/
theorem keepsDuties_driven_succ {p : HostParams} {m : HostMemory} {s : State} {n : Nat}
    (hd : edgeDuty p m s.nextInputs = true)
    (hk : ∀ t, step s = .next t → keepsDuties p (m.after p s.nextInputs s) (drivenInputs n t) t = true) :
    keepsDuties p m (drivenInputs (n + 1) s) s = true := by
  obtain ⟨rest, hr⟩ := s.fetched_eq_script
  have hedge := (s.alike_script rest).edge s.nextInputs
  rw [← hr] at hedge
  rcases outcomesAgree_cases hedge with ⟨u, v, hu, hv, huv⟩ | ⟨a, hu, hv⟩ | ⟨a, hu, hv⟩
  · simpa only [drivenInputs, keepsDuties, hd, Bool.true_and, step, hu, hv] using
      (keepsDuties_of_alike huv p _ _).trans (hk v hv)
  · simp only [drivenInputs, keepsDuties, hd, Bool.true_and, step, hu, hv]
  · simp only [drivenInputs, keepsDuties, hd, Bool.true_and, step, hu, hv]

/-- A dutiful edge, then a dutiful session. -/
theorem dutiful_of_step {p : HostParams} {m : HostMemory} {s : State} (hd : edgeDuty p m s.nextInputs = true)
    (hk : ∀ t, step s = .next t → Dutiful p (m.after p s.nextInputs s) t) : Dutiful p m s := fun n =>
  match n with
  | 0 => rfl
  | n + 1 => keepsDuties_driven_succ hd fun t ht => hk t ht n

/-- The serializer after a step with `rst = 0` is that of `TxEdge`, and the script is moved on. -/
theorem step_serializer {s t : State} {rest : List Stimulus} (hr : s.nextInputs.rst = false)
    (hf : s.fetched = s.script rest) (ht : step s = .next t) :
    t.stim = rest ∧ ((txMove s.nextInputs s.txBusy).apply s).SameTransmit t := by
  rw [step, hf] at ht
  have hstim := (edge_sameScript ht).1
  obtain ⟨u, hu, rfl⟩ := (edge_eq_next hr).1 ht
  obtain ⟨h1, h2, h3, h4, -⟩ := (rxEdge_sameTransmit_sameScript hu).1
  simp only [State.script_txBusy, State.script_txIdx, State.script_txLen,
    State.script_txPkt] at h1 h2 h3 h4
  refine ⟨hstim, ?_⟩
  rw [txEdge_eq_apply, h1]
  cases txMove s.nextInputs s.txBusy <;>
    simp [State.SameTransmit, TxMove.apply, h1, h2, h3, h4]

/-- An edge with `rst = 0` that the script drives. -/
theorem dutiful_of_drives {p : HostParams} {m : HostMemory} {s : State} {i : Inputs} {script rest : List Stimulus}
    (hs : s.Drives script) (hf : fetch s.txBusy script = some (i, rest)) (hr : i.rst = false)
    (hd : edgeDuty p m i = true)
    (hk : ∀ t, t.stim = rest → ((txMove i s.txBusy).apply s).SameTransmit t → Dutiful p (m.after p i s) t) :
    Dutiful p m s := by
  obtain ⟨hi, hrest⟩ := hs.next hf
  subst hi
  refine dutiful_of_step hd fun t ht => ?_
  obtain ⟨hstim, htx⟩ := step_serializer hr hrest ht
  exact hk t hstim htx

/-- An edge with `rst = 1` that the script drives leaves the serializer idle. -/
theorem dutiful_of_drives_rst {p : HostParams} {m : HostMemory} {s : State} {rest : List Stimulus}
    (hs : s.Drives (.rst :: rest)) (hd : edgeDuty p m rstInputs = true)
    (hk : ∀ t, t.stim = rest → t.txBusy = false → Dutiful p (m.after p rstInputs s) t) : Dutiful p m s := by
  obtain ⟨hi, hrest⟩ := hs.next (i := rstInputs) (rest := rest) rfl
  refine dutiful_of_step (hi ▸ hd) fun t ht => ?_
  rw [step, hrest, hi, edge_of_rst rfl] at ht
  cases ht
  exact hi ▸ hk _ rfl rfl

/-! ### The duties of an edge that presents no request -/

/-- No request is left on the ports unaccepted. -/
def HostMemory.Released (m : HostMemory) : Prop :=
  (m.last.cfgValid = true → m.cfgTaken = true) ∧ (m.last.txfValid = true → m.txfTaken = true)

/-- An edge with no request keeps the duties on requests once the last ones are released (R263). -/
theorem edgeDuty_of_noRequest {p : HostParams} {m : HostMemory} {i : Inputs} (hm : m.Released)
    (hc : i.cfgValid = false) (hf : i.txfValid = false) (hr : resetDuty m i) (hb : byteDuty m i) :
    edgeDuty p m i = true := by
  obtain ⟨hmc, hmf⟩ := hm
  refine (edgeDuty_iff p m i).2 ⟨hr, hb, ⟨?_, ?_, fun _ => .inl hc⟩, ?_, ?_, fun _ => .inl hf, ?_⟩
  · simp [hc]
  · rintro ⟨h1, h2⟩
    rw [hmc h1] at h2
    cases h2
  · simp [Inputs.keepsFrameDuty, hf]
  · rintro ⟨h1, h2⟩
    rw [hmf h1] at h2
    cases h2
  · simp [hf]

/-- An edge with no request and no byte keeps every duty. -/
theorem edgeDuty_of_quiet {p : HostParams} {m : HostMemory} {i : Inputs} (hm : m.Released) (hv : i.rxValid = false)
    (hc : i.cfgValid = false) (hf : i.txfValid = false) : edgeDuty p m i = true :=
  edgeDuty_of_noRequest hm hc hf (fun _ => .inr ⟨hv, hc, hf⟩) (by simp [byteDuty, hv])

/-- After an edge with no request nothing waits. -/
theorem released_after {p : HostParams} {m : HostMemory} {i : Inputs} {s : State} (hc : i.cfgValid = false)
    (hf : i.txfValid = false) : (m.after p i s).Released := by
  simp [HostMemory.Released, HostMemory.after, hc, hf]

/-! ### The end of the session: the packet goes out, and the host is closed -/

/-- What is left of the script after the request of `send`. -/
def closing : List (List Stimulus) := [.waitTx :: closeStimulus, closeStimulus]

/-- From the acceptance of the frame on, no request and no byte is presented. -/
theorem fetch_closing (busy : Bool) {script : List Stimulus} (h : script ∈ closing) :
    ∃ i rest, fetch busy script = some (i, rest) ∧ rest ∈ closing ∧ i.rst = false ∧ i.rxValid = false ∧
      i.cfgValid = false ∧ i.txfValid = false := by
  simp only [closing, List.mem_cons, List.not_mem_nil, or_false] at h
  rcases h with rfl | rfl
  · cases busy
    · exact ⟨closedInputs, closeStimulus, rfl, by simp [closing], rfl, rfl, rfl, rfl⟩
    · exact ⟨quietInputs, .waitTx :: closeStimulus, rfl, by simp [closing], rfl, rfl, rfl, rfl⟩
  · exact ⟨closedInputs, closeStimulus, rfl, by simp [closing], rfl, rfl, rfl, rfl⟩

/-- The end of the session keeps every duty, for any number of edges. -/
theorem dutiful_closing {p : HostParams} {m : HostMemory} {s : State} (hs : s.stim ∈ closing) (hm : m.Released) :
    Dutiful p m s := by
  intro n
  induction n generalizing m s with
  | zero => rfl
  | succ n ih =>
    obtain ⟨i, rest, hf, hrest, hr, hv, hc, ht⟩ := fetch_closing s.txBusy hs
    obtain ⟨rfl, hfetched⟩ := (State.drives_of_stim rfl).next hf
    refine keepsDuties_driven_succ (edgeDuty_of_quiet hm hv hc ht) fun t hstep => ih ?_ (released_after hc ht)
    rw [(step_serializer hr hfetched hstep).1]
    exact hrest

/-! ### The settle interval and the request of `send` -/

/-- The command is out, at most `k` edges of the settle interval are left, `link` is still to be presented, and no request
stands. -/
structure HostMemory.Waits (m : HostMemory) (k : Nat) (link : List LinkByte) : Prop where
  phase : ∃ j, j ≤ k ∧ m.phase = .settling j
  link : m.link = link
  cfg : m.last.cfgValid = false
  txf : m.last.txfValid = false

theorem HostMemory.Waits.released {m : HostMemory} {k : Nat} {link : List LinkByte} (h : m.Waits k link) :
    m.Released := by
  simp [HostMemory.Released, h.cfg, h.txf]

/-- The session is past its first reset. -/
theorem HostMemory.Waits.resetDuty {m : HostMemory} {k : Nat} {link : List LinkByte} (h : m.Waits k link) (i : Inputs) :
    resetDuty m i := by
  obtain ⟨j, -, hj⟩ := h.phase
  simp [Machine.resetDuty, hj]

/-- An edge with no request takes one edge of the interval, and its byte from the link. -/
theorem HostMemory.Waits.after {m : HostMemory} {k : Nat} {link : List LinkByte} (h : m.Waits k link) (p : HostParams)
    {i : Inputs} (s : State) (hc : i.cfgValid = false) (hf : i.txfValid = false) :
    (m.after p i s).Waits (k - 1) (if i.rxValid then link.tail else link) := by
  obtain ⟨j, hj, hp⟩ := h.phase
  exact ⟨⟨j - 1, by omega, by simp [HostMemory.after, Phase.after, hp, cfgAccepted, hc]⟩,
    by simp [HostMemory.after, h.link], hc, hf⟩

/-- More edges may be left. -/
theorem HostMemory.Waits.mono {m : HostMemory} {k l : Nat} {link : List LinkByte} (h : m.Waits k link) (hkl : k ≤ l) :
    m.Waits l link := by
  obtain ⟨j, hj, hp⟩ := h.phase
  exact ⟨⟨j, by omega, hp⟩, h.link, h.cfg, h.txf⟩

/-- A frame that the link carries (R234). -/
def CanFrame.Carried (f : CanFrame) : Prop := f.type ≠ 0b10 ∧ f.type ≠ 0b11 ∧ f.dlc.toNat ≤ 8

/-- `send` after the interval, with the echo drained, of a frame the link carries. -/
theorem dutiful_send {p : HostParams} {m : HostMemory} {s : State} {f : CanFrame} (hcar : f.Carried)
    (hs : s.Drives (sendStimulus f ++ closeStimulus)) (hb : s.txBusy = false) (hm : m.Waits 0 [])
    (he : m.partEcho = false) : Dutiful p m s := by
  have hphase : m.phase = .settling 0 := by
    obtain ⟨j, hj, hp⟩ := hm.phase
    rw [hp, Nat.le_zero.1 hj]
  have hduty : edgeDuty p m (txfInputs f.id f.type f.dlc f.data) = true := by
    refine (edgeDuty_iff p m _).2 ⟨hm.resetDuty _, by simp [byteDuty, txfInputs, quietInputs], ?_, ?_⟩
    · simp [cfgDuty, txfInputs, quietInputs, hm.cfg]
    · refine ⟨fun _ => hcar, by simp [hm.txf], by simp [hm.txf], fun _ => ⟨.inr (.inr hphase), ?_⟩⟩
      exact (echoDrained_iff m).2 ⟨by simp [hm.link], he⟩
  refine dutiful_of_drives (i := txfInputs f.id f.type f.dlc f.data) (rest := .waitTx :: closeStimulus) hs
    (by rw [hb]; rfl) rfl hduty fun t ht _ => dutiful_closing (by simp [ht, closing]) ⟨?_, ?_⟩
  · intro hc
    cases hc
  · intro _
    simp [HostMemory.after, txfAccepted, txfReady, txfInputs, quietInputs, hb]

/-- What `open` and `send` leave after the echo: the settle interval, `send` and `close`. -/
def settleScript (n : Nat) (f : CanFrame) : List Stimulus := .idle n :: (sendStimulus f ++ closeStimulus)

/-- An edge with no request leaves an idle serializer idle. -/
theorem txMove_of_noRequest {i : Inputs} (hc : i.cfgValid = false) (hf : i.txfValid = false) :
    txMove i false = .keep false := by
  simp [txMove, hc, hf]

/-- The settle interval, then `send`. -/
theorem dutiful_settle {p : HostParams} {m : HostMemory} {s : State} {f : CanFrame} (hcar : f.Carried)
    (n : Nat) (hs : s.Drives (settleScript n f)) (hb : s.txBusy = false) (hm : m.Waits n [])
    (he : m.partEcho = false) : Dutiful p m s := by
  induction n generalizing m s with
  | zero => exact dutiful_send hcar hs hb hm he
  | succ n ih =>
    refine dutiful_of_drives (i := quietInputs) (rest := settleScript n f) hs rfl rfl
      (edgeDuty_of_quiet hm.released rfl rfl rfl) fun t ht htx => ?_
    rw [hb, txMove_of_noRequest rfl rfl] at htx
    exact ih (State.drives_of_stim ht) (htx.1.trans hb) (hm.after p s rfl rfl)
      (by simp [HostMemory.after, he, quietInputs])

/-! ### The echo -/

/-- Bytes of one origin as the link delivers them. -/
def linkBytesOf (o : Origin) (bytes : List Byte) : List LinkByte := bytes.map fun b => ⟨b, o⟩

/-- The bytes of the echo, presented one after the other; what follows may be left with a part-presented echo only if some
of it was discarded. -/
theorem dutiful_bytes {p : HostParams} {m : HostMemory} {s : State} {k : Nat} {o : Origin} {rest : List Stimulus}
    (bytes : List Byte) (hs : s.Drives (.rx bytes :: rest)) (hb : s.txBusy = false)
    (hm : m.Waits k (linkBytesOf o bytes)) (he : m.partEcho = true → ∃ c, o = .echoPart c)
    (hk : ∀ (m' : HostMemory) (t : State), t.Drives rest → t.txBusy = false → m'.Waits k [] →
      (m'.partEcho = true → ∃ c, o = .echoPart c) → Dutiful p m' t) : Dutiful p m s := by
  induction bytes generalizing m s with
  | nil => exact hk m s hs hb hm he
  | cons b bs ih =>
    have hbyte : byteDuty m (rxInputs b) := fun _ => by rw [hm.link]; rfl
    refine dutiful_of_drives (i := rxInputs b) (rest := .rx bs :: rest) hs rfl rfl
      (edgeDuty_of_noRequest hm.released rfl rfl (hm.resetDuty _) hbyte) fun t ht htx => ?_
    rw [hb, txMove_of_noRequest rfl rfl] at htx
    refine ih (State.drives_of_stim ht) (htx.1.trans hb) ((hm.after p s rfl rfl).mono (Nat.sub_le k 1)) ?_
    intro h
    simp only [HostMemory.after, hm.link] at h
    cases o with
    | echoPart c => exact ⟨c, rfl⟩
    | traffic => exact he (by simpa [rxInputs, quietInputs, linkBytesOf] using h)
    | echo c => exact he (by simpa [rxInputs, quietInputs, linkBytesOf] using h)

/-- The echo drained in any of the three ways (R260), then the settle interval. -/
theorem dutiful_echo {p : HostParams} {m : HostMemory} {s : State} {f : CanFrame} (hcar : f.Carried)
    (n : Nat) (echo : Echo) (hs : s.Drives (echo.statements ++ settleScript n f)) (hb : s.txBusy = false)
    (hm : m.Waits n echo.linkBytes) (he : m.partEcho = false) : Dutiful p m s := by
  have hno : ∀ o : Origin, m.partEcho = true → ∃ c, o = .echoPart c := fun _ h => by simp [he] at h
  cases echo with
  | discarded => exact dutiful_settle hcar n hs hb hm he
  | presented bytes =>
    refine dutiful_bytes (o := .echo 0) bytes hs hb hm (hno _) fun m' t hs' hb' hm' he' => ?_
    refine dutiful_settle hcar n hs' hb' hm' ?_
    cases hp : m'.partEcho with
    | false => rfl
    | true =>
      obtain ⟨c, hc⟩ := he' hp
      cases hc
  | partly bytes =>
    refine dutiful_bytes (o := .echoPart 0) (rest := .rst :: settleScript n f) bytes hs hb hm (hno _)
      fun m' t hs' hb' hm' _ => ?_
    refine dutiful_of_drives_rst hs' (edgeDuty_of_quiet hm'.released rfl rfl rfl) fun u hu hub => ?_
    exact dutiful_settle hcar n (State.drives_of_stim hu) hub ((hm'.after p t rfl rfl).mono (Nat.sub_le n 1)) rfl

/-! ### The command -/

/-- The command going out, byte by byte, then the echo. -/
theorem dutiful_command {p : HostParams} {f : CanFrame} (hcar : f.Carried) (echo : Echo) (n : Nat)
    {m : HostMemory} {s : State} (hs : s.stim = .waitTx :: (echo.statements ++ settleScript p.settle f))
    (hb : s.txBusy = true) (hn : s.txIdx.toNat + 1 + n = s.txLen.toNat) (hphase : m.phase = .command) (hm : m.Released)
    (hlink : m.link = echo.linkBytes) (he : m.partEcho = false) : Dutiful p m s := by
  induction n generalizing m s with
  | zero =>
    refine dutiful_of_drives (i := quietInputs) (State.drives_of_stim hs) (by rw [hb]; rfl) rfl
      (edgeDuty_of_quiet hm rfl rfl rfl) fun t ht htx => ?_
    have htb : t.txBusy = false := by
      rw [htx.1, hb]
      simp [txMove, quietInputs, TxMove.apply, hn]
    have hdrives : t.Drives (echo.statements ++ settleScript p.settle f) := by
      rw [State.Drives, ht, htb]
      rfl
    refine dutiful_echo hcar p.settle echo hdrives htb ⟨⟨p.settle, le_rfl, ?_⟩, hlink, rfl, rfl⟩ ?_
    · simp [HostMemory.after, Phase.after, hphase, lastTransfer, transferred, quietInputs, hb, hn]
    · simp [HostMemory.after, he, quietInputs]
  | succ n ih =>
    refine dutiful_of_drives (i := quietInputs) (State.drives_of_stim hs) (by rw [hb]; rfl) rfl
      (edgeDuty_of_quiet hm rfl rfl rfl) fun t ht htx => ?_
    have hne : ¬ s.txIdx.toNat + 1 = s.txLen.toNat := by omega
    rw [hb] at htx
    obtain ⟨htb, hti, htl, -, -⟩ := htx
    have htb' : t.txBusy = true := by
      rw [htb]
      simp [txMove, quietInputs, TxMove.apply, hne, hb]
    refine ih ht htb' ?_ ?_ (released_after rfl rfl) hlink (by simp [HostMemory.after, he, quietInputs])
    · rw [hti, htl]
      show s.advanceIndex.txIdx.toNat + 1 + n = s.txLen.toNat
      rw [advanceIndex_txIdx_toNat (by omega)]
      omega
    · simp [HostMemory.after, Phase.after, hphase, lastTransfer, quietInputs, hne]

/-- The request of `open` on an idle serializer, then the command. -/
theorem dutiful_request {p : HostParams} {codes : AdapterCodes} {f : CanFrame} (hcodes : p.checked codes = true)
    (hcar : f.Carried) (echo : Echo) {m : HostMemory} {s : State}
    (hs : s.stim = .cfg codes.speed codes.ftype codes.mode :: .waitTx :: (echo.statements ++ settleScript p.settle f))
    (hb : s.txBusy = false) (hphase : m.phase = .live) (hc : m.last.cfgValid = false) (hf : m.last.txfValid = false)
    (hlink : m.link = echo.linkBytes) (he : m.partEcho = false) : Dutiful p m s := by
  have hduty : edgeDuty p m (cfgInputs codes.speed codes.ftype codes.mode) = true := by
    refine (edgeDuty_iff p m _).2 ⟨by simp [resetDuty, hphase], by simp [byteDuty, cfgInputs, quietInputs], ?_, ?_⟩
    · exact ⟨fun _ => hcodes, by simp [hc], by simp [hc]⟩
    · simp [txfDuty, Inputs.keepsFrameDuty, cfgInputs, quietInputs, hf]
  have hacc : cfgAccepted (cfgInputs codes.speed codes.ftype codes.mode) s = true := by
    simp [cfgAccepted, cfgReady, cfgInputs, quietInputs, hb]
  refine dutiful_of_drives (i := cfgInputs codes.speed codes.ftype codes.mode) (State.drives_of_stim hs)
    (by rw [hb]; rfl) rfl hduty fun t ht htx => ?_
  rw [hb] at htx
  obtain ⟨htb, hti, htl, -, -⟩ := htx
  refine dutiful_command hcar echo 19 ht htb (by rw [hti, htl]; rfl) ?_ ⟨fun _ => hacc, fun h => by cases h⟩
    hlink (by simp [HostMemory.after, he, cfgInputs, quietInputs])
  simp [HostMemory.after, Phase.after, hphase, hacc]

/-- The whole session from its first reset. -/
theorem dutiful_session {p : HostParams} {codes : AdapterCodes} {f : CanFrame} (hcodes : p.checked codes = true)
    (hcar : f.Carried) (echo : Echo) {s : State}
    (hs : s.stim = openScript p.settle codes echo ++ sendStimulus f ++ closeStimulus) :
    Dutiful p { link := echo.linkBytes } s := by
  have hs' : s.stim = .rst :: .cfg codes.speed codes.ftype codes.mode :: .waitTx ::
      (echo.statements ++ settleScript p.settle f) := by
    rw [hs]
    simp [openScript, settleScript]
  refine dutiful_of_drives_rst (State.drives_of_stim hs') ?_ fun t ht hb => ?_
  · exact edgeDuty_of_quiet ⟨nofun, nofun⟩ rfl rfl rfl
  · exact dutiful_request hcodes hcar echo ht hb rfl rfl rfl rfl rfl

/-! ### The closed host -/

/-- The state `n` edges after the host has closed. -/
def State.closedFor (s : State) (n : Nat) : State :=
  { s with rxEvt := .none, rxfValid := false, txReject := false, edges := s.edges + n }

/-- A step of a closed host: the pulse registers fall, the edge is counted, and nothing else changes (R26, D27). -/
theorem step_closed {s : State} (hs : s.stim = closeStimulus) :
    step s = .next (s.closedFor 1) := by
  have hf : fetch s.txBusy closeStimulus = some (closedInputs, closeStimulus) := fetch_closed s.txBusy []
  obtain ⟨hi, hr⟩ := (State.drives_of_stim hs).next hf
  rw [step, hi, hr, edge_of_noRst rfl, rxEdge_idle rfl, andThen_next, txEdge_eq_apply]
  have hm : txMove closedInputs ((s.script closeStimulus).report .none).txBusy = .keep false := by
    cases h : ((s.script closeStimulus).report .none).txBusy <;> rfl
  rw [hm, ← hs]
  rfl

/-- A run whose first step goes on. -/
theorem run_succ {s t : State} (n : Nat) (h : step s = .next t) :
    Host.Core.run Sys2Proof.core (n + 1) s = Host.Core.run Sys2Proof.core n t := by
  simp only [Host.Core.run, Sys2Proof.core, h]

/-- Any number of edges of a closed host. -/
theorem run_closed (n : Nat) (s : State) (hs : s.stim = closeStimulus) :
    drivenInputs n s = List.replicate n {} ∧
    Host.Core.run Sys2Proof.core n s = .next (if n = 0 then s else s.closedFor n) := by
  induction n generalizing s with
  | zero => exact ⟨rfl, rfl⟩
  | succ n ih =>
    have hstep := step_closed hs
    obtain ⟨hi, -⟩ := (State.drives_of_stim hs).next (fetch_closed s.txBusy [])
    obtain ⟨hd, hr⟩ := ih (s.closedFor 1) hs
    refine ⟨?_, ?_⟩
    · rw [drivenInputs_succ n hstep, hd, hi]
      rfl
    · rw [run_succ n hstep, hr]
      cases n with
      | zero => rfl
      | succ n => simp [State.closedFor, Nat.add_comm, Nat.add_left_comm]

/-- Settles O60: `open` by its mapping, the session stretch by stretch, the closed host by induction over the edges. -/
theorem driverOpensSendsAndCloses : Obligations.DriverOpensSendsAndCloses := by
  refine ⟨fun mapping rate echo => ?_, fun checked codes echo f s n hcodes h2 h3 hdlc hs => ?_, run_closed⟩
  · unfold openCall
    cases h : mapping rate <;> simp
  · exact dutiful_session (p := ⟨checked, Config.settleEdges⟩) hcodes ⟨h2, h3, hdlc⟩ echo hs n

end Sys2Proof.Machine
end

section
/-! Neither side depends on the other (R73): the transmit registers after an edge are given by the transmit registers and
inputs before it, the receive registers by the receive ones. -/

namespace Sys2Proof.Machine

/-! ### The two sides as relations -/

theorem State.SameTransmit.symm {s t : State} (h : s.SameTransmit t) : t.SameTransmit s := by
  obtain ⟨h1, h2, h3, h4, h5⟩ := h
  exact ⟨h1.symm, h2.symm, h3.symm, h4.symm, h5.symm⟩

theorem State.SameTransmit.trans {s t u : State} (h : s.SameTransmit t) (g : t.SameTransmit u) : s.SameTransmit u := by
  obtain ⟨h1, h2, h3, h4, h5⟩ := h
  obtain ⟨g1, g2, g3, g4, g5⟩ := g
  exact ⟨g1.trans h1, g2.trans h2, g3.trans h3, g4.trans h4, g5.trans h5⟩

theorem State.SameReceive.refl (s : State) : s.SameReceive s := ⟨rfl, rfl, rfl, rfl, rfl, rfl, rfl, rfl, rfl⟩

theorem State.SameReceive.symm {s t : State} (h : s.SameReceive t) : t.SameReceive s := by
  obtain ⟨h1, h2, h3, h4, h5, h6, h7, h8, h9⟩ := h
  exact ⟨h1.symm, h2.symm, h3.symm, h4.symm, h5.symm, h6.symm, h7.symm, h8.symm, h9.symm⟩

theorem State.SameReceive.trans {s t u : State} (h : s.SameReceive t) (g : t.SameReceive u) : s.SameReceive u := by
  obtain ⟨h1, h2, h3, h4, h5, h6, h7, h8, h9⟩ := h
  obtain ⟨g1, g2, g3, g4, g5, g6, g7, g8, g9⟩ := g
  exact ⟨g1.trans h1, g2.trans h2, g3.trans h3, g4.trans h4, g5.trans h5, g6.trans h6, g7.trans h7, g8.trans h8,
    g9.trans h9⟩

/-- The script is no receive register. -/
theorem State.sameReceive_script (s : State) (rest : List Stimulus) : s.SameReceive (s.script rest) :=
  .refl s

/-! ### The transmit half reads its own side -/

/-- A move of the serializer on two states with the same transmit registers. -/
theorem TxMove.apply_congr {s t : State} (h : s.SameTransmit t) (v : TxMove) : (v.apply s).SameTransmit (v.apply t) := by
  obtain ⟨h1, h2, h3, h4, -⟩ := h
  cases v <;> simp [State.SameTransmit, TxMove.apply, h1, h2, h3, h4]

/-- The move of an edge is chosen by the transmit inputs. -/
theorem txMove_congr {i j : Inputs} (h : i.SameTransmit j) (busy : Bool) : txMove j busy = txMove i busy := by
  obtain ⟨-, h2, h3, h4, h5, h6, h7, h8, h9, h10, h11⟩ := h
  simp only [txMove, h2, h3, h4, h5, h6, h7, h8, h9, h10, h11]

/-- `TxEdge` on equal transmit inputs and registers. -/
theorem txEdge_congr {i j : Inputs} {s t : State} (hi : i.SameTransmit j) (h : s.SameTransmit t) :
    (txEdge i s).SameTransmit (txEdge j t) := by
  have hb : t.txBusy = s.txBusy := h.1
  rw [txEdge_eq_apply, txEdge_eq_apply, hb, txMove_congr hi]
  exact TxMove.apply_congr h _

/-- The transmit registers after an edge with `rst = 0` are those of `TxEdge` on the state before it. -/
theorem edge_sameTransmit_txEdge {i : Inputs} {s t : State} (hr : i.rst = false) (ht : edge i s = .next t) :
    (txEdge i s).SameTransmit t := by
  obtain ⟨u, hu, rfl⟩ := (edge_eq_next hr).1 ht
  obtain ⟨hsame, -⟩ := rxEdge_sameTransmit_sameScript hu
  exact txEdge_congr ⟨rfl, rfl, rfl, rfl, rfl, rfl, rfl, rfl, rfl, rfl, rfl⟩ hsame

/-- Equal transmit inputs and registers give equal transmit registers, whatever the receive sides. -/
theorem edge_sameTransmit {i j : Inputs} {s u t v : State} (ht : edge i s = .next t) (hv : edge j u = .next v)
    (hi : i.SameTransmit j) (h : s.SameTransmit u) : t.SameTransmit v := by
  have hrst : j.rst = i.rst := hi.1
  cases hr : i.rst
  · exact (edge_sameTransmit_txEdge hr ht).symm.trans
      ((txEdge_congr hi h).trans (edge_sameTransmit_txEdge (hrst.trans hr) hv))
  · rw [edge_of_rst hr] at ht
    rw [edge_of_rst (hrst.trans hr)] at hv
    cases ht
    cases hv
    obtain ⟨-, -, -, hp, -⟩ := h
    exact ⟨rfl, rfl, rfl, hp, rfl⟩

/-! ### The receive half reads its own side -/

/-- The receive registers of `s` beside the transmit registers and the script of `t`. -/
def State.besideTransmit (s t : State) : State :=
  { s with
    txBusy := t.txBusy
    txIdx := t.txIdx
    txLen := t.txLen
    txPkt := t.txPkt
    txReject := t.txReject
    stim := t.stim
    edges := t.edges }

/-- The same receive registers, beside any transmit side. -/
theorem State.sameReceive_besideTransmit (s t : State) : s.SameReceive (s.besideTransmit t) := .refl s

/-- A state with the receive registers of `s` is `s` beside its own transmit side. -/
theorem State.SameReceive.eq_besideTransmit {s t : State} (h : s.SameReceive t) : t = s.besideTransmit t := by
  obtain ⟨h1, h2, h3, h4, h5, h6, h7, h8, h9⟩ := h
  simp only [State.besideTransmit, ← h1, ← h2, ← h3, ← h4, ← h5, ← h6, ← h7, ← h8, ← h9]

/-- The end of a candidate reads the buffer and the cursor, and carries the transmit side along. -/
theorem State.finish_besideTransmit (recon : IdRecon) (s t : State) :
    (s.besideTransmit t).finish recon = (s.finish recon).besideTransmit t := by
  have hcand : (s.besideTransmit t).candidate = s.candidate := rfl
  unfold State.finish
  rw [hcand]
  cases s.candidate <;> rfl

/-- `RxEdge` carries the transmit side along, whatever it is (R73). -/
theorem rxEdge_besideTransmit (recon : IdRecon) (i : Inputs) (s t : State) :
    rxEdge recon i (s.besideTransmit t) = andThen (rxEdge recon i s) fun u => .next (u.besideTransmit t) := by
  cases hv : i.rxValid
  · rw [rxEdge_idle hv, rxEdge_idle hv]
    rfl
  · cases hs : s.sync
    · rw [rxEdge_searching hv hs, rxEdge_searching (s := s.besideTransmit t) hv hs]
      by_cases hb : i.rxByte = marker
      · rw [if_pos hb, if_pos hb]
        rfl
      · rw [if_neg hb, if_neg hb]
        rfl
    · by_cases hc : s.cur.toNat < Config.bufDepth
      · rw [rxEdge_accumulating hv hs hc, rxEdge_accumulating (s := s.besideTransmit t) hv hs hc]
        exact congrArg Host.Outcome.next (State.finish_besideTransmit recon (s.storeByte i.rxByte) t)
      · rw [rxEdge_beyond hv hs hc, rxEdge_beyond (s := s.besideTransmit t) hv hs hc]
        rfl

/-- An edge on equal receive registers follows `RxEdge` on them. -/
theorem State.SameReceive.edge {s s' u : State} {i : Inputs} (h : s.SameReceive s') (hr : i.rst = false)
    (hu : rxEdge idRecon i s = .next u) : ∃ t, edge i s' = .next t ∧ u.SameReceive t := by
  have hu' : rxEdge idRecon i s' = .next (u.besideTransmit s') := by
    rw [h.eq_besideTransmit, rxEdge_besideTransmit, hu, andThen_next, ← h.eq_besideTransmit]
  exact ⟨_, (edge_eq_next hr).2 ⟨_, hu', rfl⟩,
    (u.sameReceive_besideTransmit s').trans (txEdge_sameReceive_sameScript i _).1⟩

/-- `RxEdge` is chosen by the receive inputs. -/
theorem rxEdge_congr {i j : Inputs} (h : i.SameReceive j) (recon : IdRecon) (s : State) :
    rxEdge recon j s = rxEdge recon i s := by
  obtain ⟨-, hv, hb⟩ := h
  rw [rxEdge, rxEdge, hv, hb]

/-- Equal receive inputs and registers give equal receive registers, whatever the transmit sides. -/
theorem edge_sameReceive {i j : Inputs} {s u t v : State} (ht : edge i s = .next t) (hv : edge j u = .next v)
    (hi : i.SameReceive j) (h : s.SameReceive u) : t.SameReceive v := by
  have hrst : j.rst = i.rst := hi.1
  cases hr : i.rst
  · obtain ⟨a, ha, rfl⟩ := (edge_eq_next hr).1 ht
    obtain ⟨w, hw, haw⟩ := h.edge (i := j) (hrst.trans hr) ((rxEdge_congr hi idRecon s).trans ha)
    obtain rfl : w = v := by simpa [hw] using hv
    exact (txEdge_sameReceive_sameScript i a).1.symm.trans haw
  · rw [edge_of_rst hr] at ht
    rw [edge_of_rst (hrst.trans hr)] at hv
    cases ht
    cases hv
    obtain ⟨-, -, hb, -⟩ := h
    exact ⟨rfl, rfl, hb, rfl, rfl, rfl, rfl, rfl, rfl⟩

/-- Settles O51: each half of an edge is a function of its own inputs and registers, and the other half keeps them. -/
theorem sidesAreIndependent : Obligations.SidesAreIndependent := fun _ _ _ _ _ _ ht hv =>
  ⟨edge_sameTransmit ht hv, edge_sameReceive ht hv⟩

end Sys2Proof.Machine
end

section
/-! An `rx` statement stepped through (R72, R97): each step consumes the statement's first byte. -/

namespace Sys2Proof.Machine

/-- One step of an `rx` statement, on a state with the receive registers of the one that consumes its first byte. -/
theorem step_rx {b : Byte} {bs : List Byte} {rest : List Stimulus} {s s' u : State} (h : s.SameReceive s')
    (hs : s'.stim = .rx (b :: bs) :: rest) (hu : consumeByte idRecon b s = .next u) :
    ∃ t, step s' = .next t ∧ u.SameReceive t ∧ t.stim = .rx bs :: rest ∧ t.edges = s'.edges + 1 := by
  obtain ⟨hi, hf⟩ := (State.drives_of_stim hs).next (i := rxInputs b) (rest := .rx bs :: rest) rfl
  obtain ⟨t, ht, hut⟩ := (h.trans (s'.sameReceive_script (.rx bs :: rest))).edge (i := rxInputs b) rfl hu
  obtain ⟨hstim, hedges⟩ := edge_sameScript ht
  exact ⟨t, by rw [step, hi, hf, ht], hut, hstim, hedges⟩

/-- As many steps as the statement has bytes, on a state with the receive registers of the one that consumes them. -/
theorem run_rx (bs : List Byte) {rest : List Stimulus} {s s' u : State} (h : s.SameReceive s')
    (hs : s'.stim = .rx bs :: rest) (hu : consume idRecon bs s = .next u) :
    ∃ t, Host.Core.run Sys2Proof.core bs.length s' = .next t ∧ u.SameReceive t ∧ t.stim = .rx [] :: rest ∧
      t.edges = s'.edges + bs.length := by
  induction bs generalizing s s' with
  | nil =>
    cases hu
    exact ⟨s', rfl, h, hs, rfl⟩
  | cons b bs ih =>
    obtain ⟨a, ha, hu⟩ := andThen_eq_next.1 hu
    obtain ⟨a', hstep, haa, hstim, hedges⟩ := step_rx h hs ha
    obtain ⟨t, hrun, hut, ht, hte⟩ := ih haa hstim hu
    refine ⟨t, (run_succ bs.length hstep).trans hrun, hut, ht, ?_⟩
    rw [hte, hedges, List.length_cons]
    omega

/-- Settles O53, by induction over the bytes: the serializer's moves beside them are not seen by the receive half. -/
theorem presentedBytesAreConsumedInOrder : Obligations.PresentedBytesAreConsumedInOrder := fun bs _ s _ =>
  run_rx bs (.refl s)

end Sys2Proof.Machine
end

section
/-! No outbound byte is lost and none added (R72, R140, R143): one edge moves bytes from what is pending to what is sent, and
from an accepted request to what is pending. -/

namespace Sys2Proof.Machine

/-! ### What a move sends and accepts -/

/-- The bytes of the packet that a move accepts. -/
def TxMove.packet : TxMove → List Byte
  | .load bytes => bytes
  | .advance => []
  | .keep _ => []

/-- The bytes that the transport takes with a move from the state `s`. -/
def TxMove.taken (s : State) : TxMove → List Byte
  | .advance => [txByte s]
  | .keep _ => []
  | .load _ => []

/-- The packet of the request an edge accepts is the one its move loads (R144 to R146). -/
theorem acceptedPacket_eq_packet {i : Inputs} (s : State) (hr : i.rst = false) :
    acceptedPacket i s = (txMove i s.txBusy).packet := by
  simp only [acceptedPacket, cfgAccepted, cfgReady, txfAccepted, txfReady, hr, txMove]
  cases s.txBusy
  · cases i.cfgValid
    · cases i.txfValid
      · simp [TxMove.packet]
      · by_cases hty : i.txfType = typeStandard ∨ i.txfType = typeExtended <;> simp [hty, TxMove.packet]
    · simp [TxMove.packet]
  · cases i.txReady <;> simp [TxMove.packet]

/-- The byte an edge transfers is the one its move takes (R140, R147). -/
theorem transferred_eq_taken {i : Inputs} (s : State) (hr : i.rst = false) :
    (if transferred i s then [txByte s] else []) = (txMove i s.txBusy).taken s := by
  cases hm : txMove i s.txBusy with
  | advance =>
    obtain ⟨hb, hrdy⟩ := txMove_advance hm
    simp [transferred, hr, hb, hrdy, TxMove.taken]
  | keep r =>
    have hno : ¬ (s.txBusy = true ∧ i.txReady = true) := fun ⟨hb, hrdy⟩ => by simp [txMove, hb, hrdy] at hm
    simpa [transferred, hr, TxMove.taken] using hno
  | load bytes =>
    simp [transferred, (txMove_load hm).1, TxMove.taken]

/-! ### What is pending after a move -/

/-- What is pending is read from the transmit registers. -/
theorem State.SameTransmit.pending_eq {s t : State} (h : s.SameTransmit t) : t.pending = s.pending := by
  obtain ⟨hb, hi, hl, hp, -⟩ := h
  simp only [State.pending, hb, hi, hl, hp]

/-- `tx_reject_q` is no part of what is pending. -/
@[simp] theorem setReject_pending (s : State) (r : Bool) : (s.setReject r).pending = s.pending := rfl

/-- A transfer takes the byte on `tx_byte` from the front of what is pending (R147, R148). -/
theorem txByte_cons_advanceIndex_pending {s : State} (h : s.TxInv) (hb : s.txBusy = true) :
    txByte s :: s.advanceIndex.pending = s.pending := by
  obtain ⟨hi, hl⟩ := h.1 hb
  have hlen : s.txLen.toNat ≤ 20 := by rcases hl with hl | hl <;> simp [hl]
  have hrest : s.advanceIndex.pending = (s.txPkt.toList.take s.txLen.toNat).drop (s.txIdx.toNat + 1) := by
    by_cases he : s.txIdx.toNat + 1 = s.txLen.toNat
    · rw [pending_of_idle (by simp [he]), List.drop_eq_nil_of_le (by simp [he])]
    · have hidx := advanceIndex_txIdx_toNat (s := s) (by omega)
      simp only [State.pending, hidx, State.advanceIndex_txBusy, if_neg he, hb, if_true, State.advanceIndex_txPkt,
        State.advanceIndex_txLen]
  have hbyte : txByte s = s.txPkt[s.txIdx.toNat] := by
    simp [txByte, hb, show s.txIdx.toNat < 20 by omega]
  have hlt : s.txIdx.toNat < (s.txPkt.toList.take s.txLen.toNat).length := by
    rw [List.length_take, Vector.length_toList]
    omega
  rw [hrest, hbyte, State.pending, if_pos hb, List.drop_eq_getElem_cons hlt]
  simp

/-- The first bytes of the packet register are those of the packet stored there. -/
theorem storePacket_take {bytes : List Byte} (old : Vector Byte 20) (h : bytes.length ≤ 20) :
    (storePacket bytes old).toList.take bytes.length = bytes := by
  refine List.ext_getElem (by simpa using h) fun k _ hk => ?_
  have hget := storePacket_get bytes old ⟨k, by omega⟩
  rw [List.getD_eq_getElem _ _ hk] at hget
  simpa using hget

/-- After an acceptance the whole packet is pending (R144, R145). -/
theorem loadPacket_pending (s : State) {bytes : List Byte} (h : bytes.length ≤ 20) :
    (s.loadPacket bytes).pending = bytes := by
  have hlen : (BitVec.ofNat 5 bytes.length).toNat = bytes.length := by
    rw [BitVec.toNat_ofNat]
    omega
  simpa [State.pending, hlen] using storePacket_take s.txPkt h

/-! ### The edge and the run -/

/-- One move: the byte taken and what is pending after it are what was pending and the packet accepted. -/
theorem txMove_conserves (i : Inputs) {s : State} (h : s.TxInv) :
    (txMove i s.txBusy).taken s ++ ((txMove i s.txBusy).apply s).pending =
      s.pending ++ (txMove i s.txBusy).packet := by
  cases hm : txMove i s.txBusy with
  | advance =>
    simpa [TxMove.apply, TxMove.packet, TxMove.taken] using
      txByte_cons_advanceIndex_pending h (txMove_advance hm).1
  | keep r => simp [TxMove.apply, TxMove.packet, TxMove.taken]
  | load bytes =>
    obtain ⟨hb, hl⟩ := txMove_load hm
    have hp := loadPacket_pending s (bytes := bytes) (by omega)
    simp [TxMove.apply, TxMove.packet, TxMove.taken, pending_of_idle hb, hp]

/-- One edge without reset: the byte it transfers and what is pending after it are what was pending and the packet of the
request it accepts. -/
theorem edge_conserves {i : Inputs} {s t : State} (h : s.TxInv) (hr : i.rst = false) (ht : edge i s = .next t) :
    (if transferred i s then [txByte s] else []) ++ t.pending = s.pending ++ acceptedPacket i s := by
  rw [transferred_eq_taken s hr, acceptedPacket_eq_packet s hr, (edge_sameTransmit_txEdge hr ht).pending_eq,
    txEdge_eq_apply, txMove_conserves i h]

/-- An edge without reset keeps R149. -/
theorem edge_txInv {i : Inputs} {s t : State} (h : s.TxInv) (hr : i.rst = false) (ht : edge i s = .next t) : t.TxInv :=
  (txEdge_txInv h).of_sameTransmit (edge_sameTransmit_txEdge hr ht)

/-- Settles O58, by induction over the run: what one edge conserves, with R149 carried along. -/
theorem outboundBytesArePacketsInOrder : Obligations.OutboundBytesArePacketsInOrder := by
  intro is s t h hr ht
  rw [sentBytes, acceptedPackets]
  induction is generalizing s with
  | nil =>
    cases ht
    simp
  | cons i is ih =>
    obtain ⟨u, hu, ht⟩ := runEdges_cons_eq_next.1 ht
    obtain ⟨hri, hris⟩ := List.forall_mem_cons.1 hr
    rw [alongEdges_cons _ _ hu, alongEdges_cons _ _ hu, List.append_assoc, ih u (edge_txInv h hri hu) hris ht,
      ← List.append_assoc, edge_conserves h hri hu, List.append_assoc]

end Sys2Proof.Machine
end

section
/-! The formats of the table: what the encoder writes for a row reads as that row, and a header byte or a packet that reads
as a row is what the encoder writes for it (R80 to R86). -/

namespace Sys2Proof

/-! ### Operands that a row admits -/

/-- The checksum that `PKT.CFG` carries (R88). -/
theorem wf_pktCfg {s f m c : Byte} : (Instr.pktCfg s f m c).wf = true ↔ c = s + f + m + 0x13 := beq_iff_eq

/-- The payload that `PKT.FRAME.IN` carries is as long as it declares (R83). -/
theorem wf_pktFrameIn {l : BitVec 4} {a b : Byte} {d : List Byte} {t : Byte} :
    (Instr.pktFrameIn l a b d t).wf = true ↔ d.length = l.toNat := beq_iff_eq

/-! ### The selectors -/

/-- The selector of a byte consumed in Searching decodes to `RX.SYNC` or `RX.SKIP` (R181, R182). -/
theorem decodeRxSel_skipWord (b : Byte) (c : Completion) :
    decodeRxSel (0b010#3 ++ b) c = if b = marker then .rxSync else .rxSkip b := by
  obtain ⟨h1, h2, h3, h4⟩ := skipWord_bits b
  simp only [decodeRxSel, h1, h2, h3, h4, Bool.false_eq_true, Bool.not_true, Bool.not_false, if_true, if_false]

/-- The selector of a byte consumed in Accumulating decodes to the row of its completion (R183 to R188). -/
theorem decodeRxSel_accumWord (b : Byte) (c : Completion) :
    decodeRxSel (0b011#3 ++ b) c =
      match c with
      | .incomplete => .rxAccum b
      | .cfgOk => .rxCfgOk b
      | .cfgBad => .rxDropCksum b
      | .frame => .rxFrame b
      | .short => .rxDropShort b
      | .header => .rxDropHdr b := by
  obtain ⟨h1, h2, h3, h4⟩ := accumWord_bits b
  cases c <;> simp only [decodeRxSel, h1, h2, h3, h4, Bool.false_eq_true, Bool.not_true, if_false]

/-! ### The header byte -/

/-- Byte 1 of the class `HDR.DATA` (R86). -/
theorem decodeHdr_data (l : BitVec 4) : decodeHdr (0xC#4 ++ l) = .hdrData l := by
  revert l; decide

/-- Byte 1 of neither class (R86). -/
theorem decodeHdr_other {b : Byte} (h : (Instr.hdrOther b).wf = true) : decodeHdr b = .hdrOther b := by
  revert b; decide

/-! ### The packets -/

/-- The checksum of a command, over the bytes that are not fixed (R88, R111). -/
theorem sum8_pktCfgBytes (s f m c : Byte) :
    sum8 (fun k => (pktCfgBytes s f m c).getD k 0) 2 18 = s + f + m + 0x13 := by
  simp [sum8, pktCfgBytes, List.range']
  bv_omega

/-- The bytes of a command decode to it exactly if their checksum is that of R88 (R81, R111). -/
theorem decodePktCfg_eq_ok {bs : List Byte} {i : Instr} :
    decodePktCfg bs = .ok i ↔ ∃ s f m c, i = .pktCfg s f m c ∧ c = s + f + m + 0x13 ∧ bs = pktCfgBytes s f m c := by
  constructor
  · intro h
    simp only [decodePktCfg] at h
    split_ifs at h with hbs hsum
    cases h
    rw [hbs, sum8_pktCfgBytes] at hsum
    exact ⟨_, _, _, _, rfl, hsum.symm, hbs⟩
  · rintro ⟨s, f, m, c, rfl, hc, rfl⟩
    have hsum := (sum8_pktCfgBytes s f m c).trans hc.symm
    exact (if_pos rfl).trans (if_pos hsum)

/-- The bytes of an outbound packet decode to its fields, and no other bytes do (R82, R84). -/
theorem decodePktFrame_eq_ok {bs : List Byte} {i : Instr} :
    decodePktFrame bs = .ok i ↔ ∃ e l a b d, i = .pktFrame e l a b d ∧ bs = pktFrameBytes e l a b d := by
  constructor
  · intro h
    simp only [decodePktFrame] at h
    split_ifs at h with hbs
    cases h
    exact ⟨_, _, _, _, _, rfl, hbs⟩
  · rintro ⟨e, l, a, b, d, rfl, rfl⟩
    obtain ⟨-, hl, he⟩ := descriptorBits_fields e l
    rw [BitVec.getLsbD_eq_getElem (by omega)] at he
    simp [decodePktFrame, pktFrameBytes, outFrameBytes, hl, he, packData_dataByte]

/-- The bytes of an inbound frame decode to its fields and what comes after it, and no other bytes do (R83). -/
theorem decodePktFrameIn_eq_ok {bs after : List Byte} {i : Instr} :
    decodePktFrameIn bs = .ok (i, after) ↔
      ∃ l a b d t, i = .pktFrameIn l a b d t ∧ d.length = l.toNat ∧ bs = pktFrameInBytes l a b d t ++ after := by
  constructor
  · intro h
    unfold decodePktFrameIn at h
    split at h
    · next m desc a b rest =>
      split_ifs at h with hm hd
      split at h
      · next t after' hdrop =>
        cases h
        have hlen : (loNibble desc).toNat < rest.length := by
          by_contra hge
          rw [List.drop_eq_nil_of_le (by omega)] at hdrop
          cases hdrop
        refine ⟨_, _, _, _, _, rfl, by simp; omega, ?_⟩
        have hrest := List.take_append_drop (loNibble desc).toNat rest
        rw [hdrop] at hrest
        obtain rfl : m = marker := by simpa using hm
        simp [pktFrameInBytes, marker, descriptorBits_of_dataShaped desc (by simpa using hd), hrest]
      · cases h
    · cases h
  · rintro ⟨l, a, b, d, t, rfl, hd, rfl⟩
    obtain ⟨hh, hl, -⟩ := descriptorBits_fields false l
    simp [decodePktFrameIn, pktFrameInBytes, marker, hh, hl, ← hd]

/-- No byte is left over after an inbound frame that is decoded alone. -/
theorem decode_inBytes_eq_ok {bs : List Byte} {i : Instr} :
    decode (.inBytes bs) = .ok i ↔ decodePktFrameIn bs = .ok (i, []) := by
  rcases h : decodePktFrameIn bs with ⟨j, _ | ⟨c, cs⟩⟩ | e <;> simp [decode, h]

/-! ### Both directions -/

/-- Settles O54, row by row. -/
theorem decodeOfEncode : Obligations.DecodeOfEncode := by
  intro i hwf
  cases i with
  | rst => rfl
  | rxIdle => rfl
  | rxSkip b =>
    have hb : b ≠ marker := by simpa [Instr.wf] using hwf
    rw [encode, decode, decodeRxSel_skipWord, if_neg hb]
  | rxSync => rfl
  | rxAccum b | rxCfgOk b | rxDropCksum b | rxFrame b | rxDropShort b | rxDropHdr b =>
    rw [encode, decode, decodeRxSel_accumWord]
  | txCfg speed ftype mode => rfl
  | txFrameStd id dlc data => rfl
  | txFrameExt id dlc data => rfl
  | txReject r => cases r <;> rfl
  | txXfer => rfl
  | txWait => rfl
  | txIdle => rfl
  | hdrConfig => rfl
  | hdrData l => exact congrArg _ (decodeHdr_data l)
  | hdrOther b => exact congrArg _ (decodeHdr_other hwf)
  | pktCfg s f m c => exact decodePktCfg_eq_ok.2 ⟨s, f, m, c, rfl, wf_pktCfg.1 hwf, rfl⟩
  | pktFrame e l a b d => exact decodePktFrame_eq_ok.2 ⟨e, l, a, b, d, rfl, rfl⟩
  | pktFrameIn l a b d t =>
    exact decode_inBytes_eq_ok.2
      (decodePktFrameIn_eq_ok.2 ⟨l, a, b, d, t, rfl, wf_pktFrameIn.1 hwf, (List.append_nil _).symm⟩)

/-- The row of a header byte is well-formed, and the byte is its encoding (R86). -/
theorem decodeHdr_encode (b : Byte) : (decodeHdr b).wf = true ∧ encode (decodeHdr b) = .hdr b := by
  revert b; decide

/-- Settles O55: each decoder of bytes answers a row exactly on the bytes of that row. -/
theorem encodeOfDecode : Obligations.EncodeOfDecode := by
  refine ⟨fun b i h => ?_, fun bs i h => ?_, fun bs i h => ?_, fun bs i h => ?_⟩
  · cases h
    exact decodeHdr_encode b
  · obtain ⟨s, f, m, c, rfl, hc, rfl⟩ := decodePktCfg_eq_ok.1 h
    exact ⟨wf_pktCfg.2 hc, rfl⟩
  · obtain ⟨e, l, a, b, d, rfl, rfl⟩ := decodePktFrame_eq_ok.1 h
    exact ⟨rfl, rfl⟩
  · obtain ⟨l, a, b, d, t, rfl, hd, rfl⟩ := decodePktFrameIn_eq_ok.1 (decode_inBytes_eq_ok.1 h)
    exact ⟨wf_pktFrameIn.2 hd, congrArg Sample.inBytes (List.append_nil _).symm⟩

/-- Settles O56, by evaluating the decoder on the words. -/
theorem specWordsDecode : Obligations.SpecWordsDecode := by
  refine ⟨?_, ?_, ?_, ?_, ?_, ?_, ?_⟩ <;> rfl

end Sys2Proof
end

section
/-! An inbound data frame consumed whole (R83, R193): the bytes up to the trailer leave the candidate incomplete, whatever
they are, and the trailer ends it. -/

namespace Sys2Proof.Machine

/-! ### The candidate held -/

/-- The cells of a candidate from cell `a` on, every other cell as before. -/
theorem Memory.read_writeAll (m : Memory) (a : Nat) (bs : List Byte) (k : Nat) :
    Memory.read (Memory.writeAll m a bs) k = if k < a then Memory.read m k else bs[k - a]?.getD (Memory.read m k) := by
  induction bs generalizing m a with
  | nil => simp [Memory.writeAll]
  | cons b bs ih =>
    rw [Memory.writeAll, ih, Memory.read_write]
    rcases Nat.lt_trichotomy k a with h | rfl | h
    · rw [if_pos (by omega), if_neg (by omega), if_pos h]
    · simp
    · obtain ⟨j, rfl⟩ := Nat.exists_eq_add_of_lt h
      simp [show a + j + 1 - a = j + 1 by omega, show a + j + 1 - (a + 1) = j by omega,
        show ¬ a + j + 1 < a + 1 by omega, show ¬ a + j + 1 < a by omega, show ¬ a + j + 1 = a by omega]

/-- A held candidate is read back byte by byte. -/
theorem State.holdCandidate_read (s : State) (bs : List Byte) (k : Nat) :
    Memory.read (s.holdCandidate bs).buf k = bs[k]?.getD (Memory.read s.buf k) := by
  simp [State.holdCandidate, Memory.read_writeAll]

/-- One byte more at the end of a candidate. -/
theorem Memory.writeAll_concat (m : Memory) (a : Nat) (bs : List Byte) (b : Byte) :
    Memory.writeAll m a (bs ++ [b]) = Memory.write (Memory.writeAll m a bs) (a + bs.length) b := by
  induction bs generalizing m a with
  | nil => rfl
  | cons c bs ih =>
    rw [List.cons_append, Memory.writeAll, ih, Memory.writeAll, List.length_cons, Nat.add_assoc, Nat.add_comm 1]

/-- The cursor counts the bytes of a held candidate. -/
theorem State.holdCandidate_cur_toNat (s : State) {bs : List Byte} (h : bs.length < 128) :
    (s.holdCandidate bs).cur.toNat = bs.length := by
  simp only [State.holdCandidate, BitVec.toNat_ofNat]
  omega

/-- An append to a held candidate holds the longer one. -/
theorem State.holdCandidate_storeByte (s : State) {bs : List Byte} (h : bs.length < 128) (b : Byte) :
    (s.holdCandidate bs).storeByte b = s.holdCandidate (bs ++ [b]) := by
  have hcur : (s.holdCandidate bs).cur + 1 = (s.holdCandidate (bs ++ [b])).cur := by
    simp [State.holdCandidate, BitVec.ofNat_add]
  have hbuf : Memory.write (s.holdCandidate bs).buf (s.holdCandidate bs).cur.toNat b =
      (s.holdCandidate (bs ++ [b])).buf := by
    rw [s.holdCandidate_cur_toNat h]
    simp [State.holdCandidate, Memory.writeAll_concat]
  rw [State.storeByte, hcur, hbuf]
  rfl

/-- The marker in Searching starts the candidate that is the marker alone. -/
theorem State.startCandidate_eq_holdCandidate (s : State) : s.startCandidate = s.holdCandidate [marker] := rfl

/-! ### The candidate of a data frame -/

/-- Byte 1 of an inbound frame is of the class `HDR.DATA` of its length (R86). -/
theorem headerClass_descriptorBits (l : BitVec 4) : headerClass (descriptorBits false l) = .data l := by
  revert l; decide

/-- A data-shaped candidate is incomplete below its declared length (R173). -/
theorem completionOf_dataShaped_of_lt {cell : Nat → Byte} {l : BitVec 4} {n : Nat}
    (h1 : 2 ≤ n → cell 1 = descriptorBits false l) (hn : n < l.toNat + 5) : completionOf cell n = .incomplete := by
  have hc : complete cell n = false := by
    by_cases h2 : n < 2
    · simp [complete, h2]
    · simp [complete, h2, h1 (by omega), headerClass_descriptorBits, hn]
  simp [completionOf, hc]

/-- A data-shaped candidate of its declared length is too short for a frame if that length is 0 (R187), else a frame
(R186). -/
theorem completionOf_dataShaped {cell : Nat → Byte} {l : BitVec 4} (h0 : cell 0 = marker)
    (h1 : cell 1 = descriptorBits false l) :
    completionOf cell (l.toNat + 5) = if l = 0 then .short else .frame := by
  have hc : complete cell (l.toNat + 5) = true := by
    simp [complete, h1, headerClass_descriptorBits]
  have hhi : hiNibble (cell 1) = 0xC := h1 ▸ (descriptorBits_fields false l).1
  have htag : cell 1 ≠ tag := fun h => hiNibble_tag (h ▸ hhi)
  have hl : 6 ≤ l.toNat + 5 ↔ ¬ l = 0 := by
    have hz : (0 : BitVec 4).toNat = 0 := rfl
    rw [← BitVec.toNat_inj, hz]
    omega
  simp only [completionOf, hc, hhi, htag, h0, hl, Bool.not_true, Bool.false_eq_true, and_false, and_true, if_true,
    if_false, ite_not]

/-! ### The bytes of the frame, one after the other -/

/-- The end of a candidate writes the event and `rxf_valid`, whatever they were (R179). -/
theorem State.finish_report (recon : IdRecon) (t : State) (ev : Event) :
    (t.report ev).finish recon = t.finish recon := by
  have hcand : (t.report ev).candidate = t.candidate := rfl
  unfold State.finish
  rw [hcand]
  cases t.candidate <;> rfl

/-- A byte appended to a held candidate (R172, R174). -/
theorem consumeByte_holdCandidate (recon : IdRecon) (s : State) {bs : List Byte} (h : bs.length < Config.bufDepth)
    (ev : Event) (b : Byte) :
    consumeByte recon b ((s.holdCandidate bs).report ev) = .next ((s.holdCandidate (bs ++ [b])).finish recon) := by
  have hd : Config.bufDepth = 100 := rfl
  have hcur : (s.holdCandidate bs).cur.toNat = bs.length := s.holdCandidate_cur_toNat (by omega)
  have hstore : ((s.holdCandidate bs).report ev).storeByte b = (s.holdCandidate (bs ++ [b])).report ev := by
    rw [← s.holdCandidate_storeByte (by omega)]
    rfl
  rw [consumeByte_accumulating (s := (s.holdCandidate bs).report ev) rfl (hcur.trans_lt h), demuxFinish_present, hstore,
    State.finish_report]

/-- Bytes that leave every longer candidate incomplete are appended, one after the other (R183). -/
theorem consume_holdCandidate (recon : IdRecon) (s : State) (bs : List Byte) {pre : List Byte} (ev : Event)
    (hlen : (pre ++ bs).length ≤ Config.bufDepth)
    (hinc : ∀ k, k < bs.length → (s.holdCandidate (pre ++ bs.take (k + 1))).candidate = .incomplete) :
    ∃ ev', consume recon bs ((s.holdCandidate pre).report ev) =
      .next ((s.holdCandidate (pre ++ bs)).report ev') := by
  induction bs generalizing pre ev with
  | nil => exact ⟨ev, by simp [consume]⟩
  | cons b bs ih =>
    have hpre : pre.length < Config.bufDepth := by
      simp only [List.length_append, List.length_cons] at hlen
      omega
    have hcand : (s.holdCandidate (pre ++ [b])).candidate = .incomplete := hinc 0 (by simp)
    rw [List.append_cons] at hlen ⊢
    obtain ⟨ev', h⟩ := ih (if (s.holdCandidate (pre ++ [b])).cur = 1 then .sync else .accum) hlen
      fun k hk => by simpa using hinc (k + 1) (by simpa using hk)
    refine ⟨ev', ?_⟩
    rw [consume, consumeByte_holdCandidate recon s hpre, andThen_next, State.finish, hcand, ← h]

/-- The bytes of an inbound frame between its marker and its trailer leave the candidate incomplete (R83, R183). -/
theorem consume_pktFrameIn_body (recon : IdRecon) (s : State) {l : BitVec 4} (a b : Byte) {d : List Byte}
    (hd : d.length = l.toNat) :
    ∃ ev, consume recon (descriptorBits false l :: a :: b :: d) ((s.holdCandidate [marker]).report .sync) =
      .next ((s.holdCandidate (marker :: descriptorBits false l :: a :: b :: d)).report ev) := by
  have hl := l.isLt
  have hdepth : Config.bufDepth = 100 := rfl
  refine consume_holdCandidate recon s _ (pre := [marker]) .sync (by simp; omega) fun k hk => ?_
  have hlen : ([marker] ++ (descriptorBits false l :: a :: b :: d).take (k + 1)).length = k + 2 := by
    rw [List.length_append, List.length_take, Nat.min_eq_left hk, List.length_singleton, Nat.add_comm 1]
  have hk' : k < l.toNat + 3 := by
    simp only [List.length_cons] at hk
    omega
  rw [State.candidate, s.holdCandidate_cur_toNat (by omega), hlen]
  exact completionOf_dataShaped_of_lt (l := l) (fun _ => by simp [State.holdCandidate_read]) (by omega)

/-- An inbound frame consumed from Searching is held whole at its trailer, and finished there (R193). -/
theorem consume_pktFrameIn (recon : IdRecon) {l : BitVec 4} (a b : Byte) {d : List Byte} (t : Byte) {s : State}
    (hd : d.length = l.toNat) (hs : s.sync = false) :
    consume recon (pktFrameInBytes l a b d t) s =
      .next ((s.holdCandidate (pktFrameInBytes l a b d t)).finish recon) := by
  have hl := l.isLt
  have hdepth : Config.bufDepth = 100 := rfl
  obtain ⟨ev, h⟩ := consume_pktFrameIn_body recon s a b hd
  have hsplit : pktFrameInBytes l a b d t = marker :: ((descriptorBits false l :: a :: b :: d) ++ [t]) := rfl
  rw [hsplit, consume, consumeByte_searching hs, if_pos rfl, andThen_next, consume_append,
    State.startCandidate_eq_holdCandidate, h, andThen_next, consume,
    consumeByte_holdCandidate recon s (by simp; omega), andThen_next]
  rfl

/-! ### The frame emitted -/

/-- The payload of an inbound frame on the ports: padded or cut to eight bytes (R177). -/
def payloadPort (d : List Byte) : BitVec 64 :=
  packData (d[0]?.getD 0) (d[1]?.getD 0) (d[2]?.getD 0) (d[3]?.getD 0) (d[4]?.getD 0) (d[5]?.getD 0) (d[6]?.getD 0)
    (d[7]?.getD 0)

/-- Byte `k` of the port is byte `k` of the payload, or zero (R66). -/
theorem dataByte_payloadPort (d : List Byte) {k : Nat} (hk : k < 8) : dataByte (payloadPort d) k = d[k]?.getD 0 := by
  obtain ⟨h0, h1, h2, h3, h4, h5, h6, h7⟩ := dataByte_packData (d[0]?.getD 0) (d[1]?.getD 0) (d[2]?.getD 0)
    (d[3]?.getD 0) (d[4]?.getD 0) (d[5]?.getD 0) (d[6]?.getD 0) (d[7]?.getD 0)
  interval_cases k <;> assumption

/-- The frame that an inbound packet carries (R177). -/
def inboundFrame (recon : IdRecon) (l : BitVec 4) (a b : Byte) (d : List Byte) : CanFrame where
  id := (recon a b).setWidth 32
  type := typeStandard
  dlc := l
  data := payloadPort d

/-- The payload bytes of a held packet (R177). -/
theorem payloadByte_pktFrameIn (s : State) {l : BitVec 4} (a b : Byte) {d : List Byte} (t : Byte)
    (hd : d.length = l.toNat) {k : Nat} (hk : k < 8) :
    payloadByte (Memory.read (s.holdCandidate (pktFrameInBytes l a b d t)).buf) (min (l.toNat + 5 - 5) 8) k =
      d[k]?.getD 0 := by
  unfold payloadByte
  split_ifs with h
  · have hkd : k < d.length := by omega
    simp [State.holdCandidate_read, pktFrameInBytes, Nat.add_comm 4 k, List.getElem?_append_left hkd, hkd]
  · rw [List.getElem?_eq_none (by omega), Option.getD_none]

/-- The frame built from a held packet. -/
theorem buildFrame_pktFrameIn (recon : IdRecon) (s : State) {l : BitVec 4} (a b : Byte) {d : List Byte} (t : Byte)
    (hd : d.length = l.toNat) :
    buildFrame recon (Memory.read (s.holdCandidate (pktFrameInBytes l a b d t)).buf) (l.toNat + 5) =
      inboundFrame recon l a b d := by
  have hp := fun k hk => payloadByte_pktFrameIn s a b t hd (k := k) hk
  simp only [buildFrame, hp 0 (by omega), hp 1 (by omega), hp 2 (by omega), hp 3 (by omega), hp 4 (by omega),
    hp 5 (by omega), hp 6 (by omega), hp 7 (by omega)]
  simp [State.holdCandidate_read, pktFrameInBytes, inboundFrame, payloadPort, (descriptorBits_fields false l).2.1]

/-- A held packet at its trailer: dropped if it declares no payload, else its frame is emitted (R186, R187). -/
theorem finish_pktFrameIn (recon : IdRecon) (s : State) {l : BitVec 4} (a b : Byte) {d : List Byte} (t : Byte)
    (hd : d.length = l.toNat) :
    (s.holdCandidate (pktFrameInBytes l a b d t)).finish recon =
      if l = 0 then (s.holdCandidate (pktFrameInBytes l a b d t)).toSearching.report .dropShape
      else (s.holdCandidate (pktFrameInBytes l a b d t)).toSearching.emit (inboundFrame recon l a b d) := by
  have hl := l.isLt
  have hlen : (pktFrameInBytes l a b d t).length = l.toNat + 5 := by simp [pktFrameInBytes, hd]
  have hcur : (s.holdCandidate (pktFrameInBytes l a b d t)).cur.toNat = l.toNat + 5 := by
    rw [s.holdCandidate_cur_toNat (by omega), hlen]
  have hcand : (s.holdCandidate (pktFrameInBytes l a b d t)).candidate = if l = 0 then .short else .frame := by
    rw [State.candidate, hcur]
    exact completionOf_dataShaped (by simp [State.holdCandidate_read, pktFrameInBytes, marker])
      (by simp [State.holdCandidate_read, pktFrameInBytes])
  rw [State.finish, hcand, hcur, buildFrame_pktFrameIn recon s a b t hd]
  split_ifs <;> rfl

/-- The Standard descriptor as its two nibbles (R84). -/
theorem descriptorBits_standard (l : BitVec 4) : descriptorBits false l = 0xC#4 ++ l := by
  revert l; decide

/-- Settles O23: the packet is held whole at its trailer, by induction over the bytes before it, and what the held
candidate is there depends on its declared length alone. -/
theorem inboundPacketIsDecoded : Obligations.InboundPacketIsDecoded := by
  intro l a b d tr s hwf hs
  have hd : d.length = l.toNat := wf_pktFrameIn.1 hwf
  have hrun : ∀ recon, consume recon (pktFrameInBytes l a b d tr) s = _ := fun recon =>
    (consume_pktFrameIn recon a b tr hd hs).trans (congrArg _ (finish_pktFrameIn recon s a b tr hd))
  have hread : ∀ k, Memory.read (s.holdCandidate (pktFrameInBytes l a b d tr)).buf k =
      (0xAA :: (0xC#4 ++ l) :: a :: b :: (d ++ [tr]))[k]?.getD (Memory.read s.buf k) := fun k => by
    rw [s.holdCandidate_read, pktFrameInBytes, descriptorBits_standard]
  by_cases hz : l = 0
  · simp only [if_pos hz] at hrun ⊢
    exact ⟨_, hrun idRecon, rfl, rfl, ⟨rfl, rfl, rfl, rfl, rfl⟩, ⟨rfl, rfl⟩, hread,
      fun _ => ⟨rfl, rfl, rfl, rfl, rfl, rfl⟩, fun h => absurd hz h, hrun⟩
  · simp only [if_neg hz] at hrun ⊢
    exact ⟨_, hrun idRecon, rfl, rfl, ⟨rfl, rfl, rfl, rfl, rfl⟩, ⟨rfl, rfl⟩, hread, fun h => absurd h hz,
      fun _ => ⟨rfl, rfl, rfl, rfl, rfl, fun k hk => dataByte_payloadPort d hk⟩, hrun⟩

end Sys2Proof.Machine
end

section
/-! The header rows and the packet rows as operations (R81, R82, R85, R86, R88): what byte 1 makes of a candidate, and what
an outbound packet loads into the serializer. -/

namespace Sys2Proof.Machine

/-! ### The header classes -/

/-- The row of a header byte by the table's masks; the classes exclude each other (R86). -/
theorem decodeHdr_cases (b : Byte) :
    (decodeHdr b = .hdrConfig ∧ b &&& 0xFF = 0x55 ∧ b &&& 0xF0 ≠ 0xC0) ∨
    (decodeHdr b = .hdrData (b.extractLsb' 0 4) ∧ b &&& 0xFF ≠ 0x55 ∧ b &&& 0xF0 = 0xC0) ∨
    (decodeHdr b = .hdrOther b ∧ b &&& 0xFF ≠ 0x55 ∧ b &&& 0xF0 ≠ 0xC0) := by
  revert b; decide

/-- Settles O18: the class of each byte, and the bytes of each class counted. -/
theorem headerClassesPartitionTheBytes : Obligations.HeaderClassesPartitionTheBytes := by
  refine ⟨fun b i => ?_, rfl, rfl, rfl⟩
  rcases decodeHdr_cases b with ⟨h, h1, h2⟩ | ⟨h, h1, h2⟩ | ⟨h, h1, h2⟩ <;>
    simp only [h, h1, h2, ne_eq, not_true_eq_false, not_false_eq_true, and_false, and_true, or_false, false_or, eq_comm]

/-! ### Byte 1 of a candidate -/

/-- Byte 1 appended to a candidate that stays incomplete (R183). -/
theorem appendAfter_byteOne {s : State} (hc : s.cur = 1) (b : Byte) :
    appendAfter b s =
      .next { s with buf := Memory.write s.buf 1 b, cur := 2, rxEvt := .accum, rxfValid := false } := by
  obtain ⟨y, cur⟩ := s
  cases hc
  rfl

/-- Byte 1 appended to a candidate that it ends (R188). -/
theorem dropAfter_byteOne {s : State} (hc : s.cur = 1) (ev : Event) (b : Byte) :
    dropAfter ev b s =
      .next { s with buf := Memory.write s.buf 1 b, sync := false, cur := 0, rxEvt := ev, rxfValid := false } := by
  obtain ⟨y, cur⟩ := s
  cases hc
  rfl

/-- Settles O19: the two classes with more bytes to come append, the third ends the candidate. -/
theorem headerRowsConsumeByteOne : Obligations.HeaderRowsConsumeByteOne := fun _ _ hc =>
  ⟨appendAfter_byteOne hc tag, fun l => descriptorBits_standard l ▸ appendAfter_byteOne hc (descriptorBits false l),
    fun b _ => dropAfter_byteOne hc .dropShape b⟩

/-- The class of a byte says what the byte is (R86). -/
theorem headerClass_cases (b : Byte) :
    (headerClass b = .config ∧ b = tag) ∨ (∃ l, headerClass b = .data l ∧ b = descriptorBits false l) ∨
    (headerClass b = .other ∧ hiNibble b ≠ 0xC) := by
  unfold headerClass
  split_ifs with ht hd
  · exact .inl ⟨rfl, ht⟩
  · exact .inr (.inl ⟨_, rfl, (descriptorBits_of_dataShaped b hd).symm⟩)
  · exact .inr (.inr ⟨rfl, hd⟩)

/-- After byte 1 the candidate is complete exactly if that byte is of the class `HDR.OTHER` (R85, R188). -/
theorem completionAfter_byteOne {s : State} (hc : s.cur = 1) (b : Byte) :
    completionAfter b s = if headerClass b = .other then .header else .incomplete := by
  have h1 : s.cur.toNat = 1 := by rw [hc]; rfl
  rw [completionAfter, h1]
  rcases headerClass_cases b with ⟨h, -⟩ | ⟨l, h, -⟩ | ⟨h, hd⟩
  · simp [completionOf, complete, h]
  · simp [completionOf, complete, h]
  · simp only [completionOf, complete, Memory.read_write_same, h, hd]
    rfl

/-- Settles O20: the class of byte 1 decides what the candidate is after its append. -/
theorem headerRowIsTheReceiveRow : Obligations.HeaderRowIsTheReceiveRow := by
  intro i s hr hv hs hc
  rw [rxRow_eq, completionAfter_byteOne hc, decodeHdr]
  rcases headerClass_cases i.rxByte with ⟨h, hb⟩ | ⟨l, h, hb⟩ | ⟨h, -⟩ <;>
    simp only [hr, hv, hs, h, reduceCtorEq, Bool.not_true, Bool.false_eq_true, if_false, if_true]
  · rw [hb]; rfl
  · rw [hb]; rfl
  · rfl

/-! ### The outbound packets -/

/-- The command with the checksum of R88. -/
theorem encodeConfig_eq (speed ftype mode : Byte) :
    encodeConfig speed ftype mode = pktCfgBytes speed ftype mode (speed + ftype + mode + 0x13) := by
  rw [encodeConfig, sum8_pktCfgBytes]

/-- The descriptor of a Standard and of an Extended request, bit by bit (R84, R121). -/
theorem descriptor_eq (l : BitVec 4) :
    descriptor typeStandard l = descriptorBits false l ∧ descriptor typeExtended l = descriptorBits true l := by
  revert l; decide

/-- Settles O21: the encoders write the bytes of the packet rows. -/
theorem packetRowIsTheRequest : Obligations.PacketRowIsTheRequest := by
  refine ⟨fun sp ft md c s hwf => ?_, fun l id d s => ?_⟩
  · obtain rfl := wf_pktCfg.1 hwf
    simp only [exec, execPktCfg, execTxCfg, encodeConfig_eq]
  · obtain ⟨hstd, hext⟩ := descriptor_eq l
    simp only [exec, execPktFrame, execTxFrameStd, execTxFrameExt, encodeFrame, pktFrameBytes, hstd, hext, and_self]

/-- The descriptor as its base, its type bit and its length (R121). -/
theorem descriptorBits_eq_or (e : Bool) (l : BitVec 4) :
    descriptorBits e l = 0xC0 ||| (if e then 0x20 else 0) ||| l.setWidth 8 := by
  cases e <;> revert l <;> decide

/-- A packet of 20 bytes fills the packet register. -/
theorem storePacket_pktCfgBytes (s f m c : Byte) (old : Vector Byte 20) :
    storePacket (pktCfgBytes s f m c) old =
      #v[0xAA, 0x55, 0x12, s, f, 0, 0, 0, 0, 0, 0, 0, 0, m, 0x01, 0, 0, 0, 0, c] := by
  refine Vector.ext fun k hk => ?_
  interval_cases k <;> simp [storePacket, pktCfgBytes]

/-- A packet of 13 bytes leaves the last seven places as they were (R150). -/
theorem storePacket_outFrameBytes (desc i j : Byte) (d : BitVec 64) (old : Vector Byte 20) :
    storePacket (outFrameBytes desc i j d) old =
      #v[0xAA, desc, i, j, dataByte d 0, dataByte d 1, dataByte d 2, dataByte d 3, dataByte d 4, dataByte d 5,
        dataByte d 6, dataByte d 7, 0x55, old[13], old[14], old[15], old[16], old[17], old[18], old[19]] := by
  refine Vector.ext fun k hk => ?_
  interval_cases k <;> simp [storePacket, outFrameBytes]

/-- Settles O22: the packet register after each of the two packets. -/
theorem packetRowsLoadTheirBytes : Obligations.PacketRowsLoadTheirBytes := by
  refine ⟨fun sp ft md c s => ⟨_, rfl, rfl, storePacket_pktCfgBytes sp ft md c s.txPkt⟩,
    fun e l a b d s => ⟨_, rfl, rfl, ?_⟩⟩
  rw [← descriptorBits_eq_or]
  exact storePacket_outFrameBytes _ a b d s.txPkt

end Sys2Proof.Machine
end

section
/-! Which rows an edge runs (R80, R225): the table's match and mask read bit by bit, the handshakes and the event of the
rows that ran, and a step as the edge of its rows on the script's inputs (R96, R97, R140, R250). -/

namespace Sys2Proof

/-! ### The words of the table bit by bit -/

/-- An 11-bit selector is its three flags and its byte. -/
theorem rxWord_eq (w : BitVec 11) :
    w = BitVec.ofBool (w.getLsbD 10) ++ BitVec.ofBool (w.getLsbD 9) ++ BitVec.ofBool (w.getLsbD 8)
      ++ w.extractLsb' 0 8 := by
  refine BitVec.eq_of_getLsbD_eq fun k hk => ?_
  simp only [BitVec.getLsbD_append, BitVec.getLsbD_ofBool, BitVec.getLsbD_extractLsb']
  interval_cases k <;> simp

/-- A word in two parts fits a match and mask part by part. -/
theorem fitsWord_append {m n : Nat} (f p q : BitVec m) (b p' q' : BitVec n) :
    fitsWord (f ++ b) (some (p ++ p', q ++ q')) = (fitsWord f (some (p, q)) && fitsWord b (some (p', q'))) := by
  rw [Bool.eq_iff_iff]
  simp only [fitsWord, BitVec.and_append, Bool.and_eq_true, beq_iff_eq]
  refine ⟨fun h => ⟨?_, ?_⟩, fun ⟨hf, hb⟩ => by rw [hf, hb]⟩
  · simpa only [BitVec.extractLsb'_append_eq_left] using congrArg (BitVec.extractLsb' n m) h
  · simpa only [BitVec.extractLsb'_append_eq_right] using congrArg (BitVec.extractLsb' 0 n) h

/-- The match and mask of each receive row as flags and byte of the selector (R80): all but `RX.SYNC` admit any byte. -/
theorem fitsWord_rxWord (r v y : Bool) (b : Byte) :
    let w : BitVec 11 := BitVec.ofBool r ++ BitVec.ofBool v ++ BitVec.ofBool y ++ b
    fitsWord w (some (0x400, 0x400)) = r ∧ fitsWord w (some (0x000, 0x600)) = (!r && !v) ∧
    fitsWord w (some (0x200, 0x700)) = (!r && v && !y) ∧
    fitsWord w (some (0x2AA, 0x7FF)) = (!r && v && !y && b == marker) ∧
    fitsWord w (some (0x300, 0x700)) = (!r && v && y) := by
  have hany : fitsWord b (some (0, 0)) = true := by simp [fitsWord]
  have hmark : fitsWord b (some (0xAA, 0xFF)) = (b == marker) := by revert b; decide
  have h := fun p q p' q' => fitsWord_append (BitVec.ofBool r ++ BitVec.ofBool v ++ BitVec.ofBool y) p q b p' q'
  refine ⟨(h 4 4 0 0).trans ?_, (h 0 6 0 0).trans ?_, (h 2 7 0 0).trans ?_, (h 2 7 0xAA 0xFF).trans ?_,
    (h 3 7 0 0).trans ?_⟩ <;>
  · simp only [hany, hmark, Bool.and_true]
    cases r <;> cases v <;> cases y <;> rfl

/-- The match and mask of each transmit row as flags of the selector (R80). -/
theorem fitsWord_txSel (w : BitVec 7) :
    fitsWord w (some (0x40, 0x40)) = w.getLsbD 6 ∧
    fitsWord w (some (0x30, 0x70)) = (!w.getLsbD 6 && w.getLsbD 5 && w.getLsbD 4) ∧
    fitsWord w (some (0x20, 0x70)) = (!w.getLsbD 6 && w.getLsbD 5 && !w.getLsbD 4) ∧
    fitsWord w (some (0x08, 0x68)) = (!w.getLsbD 6 && !w.getLsbD 5 && w.getLsbD 3) ∧
    fitsWord w (some (0x06, 0x6E)) = (!w.getLsbD 6 && !w.getLsbD 5 && !w.getLsbD 3 && w.getLsbD 2 && w.getLsbD 1) ∧
    fitsWord w (some (0x05, 0x6F)) =
      (!w.getLsbD 6 && !w.getLsbD 5 && !w.getLsbD 3 && w.getLsbD 2 && !w.getLsbD 1 && w.getLsbD 0) ∧
    fitsWord w (some (0x04, 0x6F)) =
      (!w.getLsbD 6 && !w.getLsbD 5 && !w.getLsbD 3 && w.getLsbD 2 && !w.getLsbD 1 && !w.getLsbD 0) ∧
    fitsWord w (some (0x00, 0x6C)) = (!w.getLsbD 6 && !w.getLsbD 5 && !w.getLsbD 3 && !w.getLsbD 2) := by
  revert w; decide

/-- A receive row's match, mask, operand and condition hold exactly for the decoded row (R80): both sides are read off
the three flags, then the byte or the completion. -/
theorem rxApplies_iff (sel : BitVec 11) (c : Completion) (i : Instr) :
    rxApplies sel c i = true ↔ i = decodeRxSel sel c := by
  obtain ⟨h1, h2, h3, h4, h5⟩ :=
    fitsWord_rxWord (sel.getLsbD 10) (sel.getLsbD 9) (sel.getLsbD 8) (sel.extractLsb' 0 8)
  rw [← rxWord_eq] at h1 h2 h3 h4 h5
  have hnone : fitsWord sel none = false := rfl
  simp only [decodeRxSel]
  cases i <;> simp only [rxApplies, rxPattern, rxCondition, h1, h2, h3, h4, h5, hnone]
  all_goals
    cases sel.getLsbD 10
    · cases sel.getLsbD 9
      · simp
      · cases sel.getLsbD 8
        · by_cases hb : sel.extractLsb' 0 8 = marker <;> simp [hb]
        · cases c <;> simp
    · simp

/-- A transmit row's match, mask and operands hold exactly for the decoded row (R80): both sides are read off the flags,
in the decoder's order. -/
theorem txApplies_iff (sel : BitVec 7) (o : TxOperands) (i : Instr) :
    txApplies sel o i = true ↔ i = decodeTxSel sel o := by
  obtain ⟨h1, h2, h3, h4, h5, h6, h7, h8⟩ := fitsWord_txSel sel
  have hnone : fitsWord sel none = false := rfl
  rw [decodeTxSel]
  cases i <;> simp only [txApplies, txPattern, txCondition, h1, h2, h3, h4, h5, h6, h7, h8, hnone]
  all_goals
    cases sel.getLsbD 6
    · cases sel.getLsbD 5
      · cases sel.getLsbD 3
        · cases sel.getLsbD 2
          · simp
          · cases sel.getLsbD 1
            · cases sel.getLsbD 0 <;> simp [and_assoc]
            · simp
        · simp [and_assoc]
      · cases sel.getLsbD 4 <;> simp
    · simp

/-- A decoded receive row admits its operands: `RX.SKIP` never carries the marker (R181). -/
theorem decodeRxSel_wf (sel : BitVec 11) (c : Completion) : (decodeRxSel sel c).wf = true := by
  simp only [decodeRxSel]
  split_ifs with _ _ _ hb
  · rfl
  · rfl
  · rfl
  · exact bne_iff_ne.2 hb
  · cases c <;> rfl

/-- A decoded transmit row admits every operand (R124). -/
theorem decodeTxSel_wf (sel : BitVec 7) (o : TxOperands) : (decodeTxSel sel o).wf = true := by
  unfold decodeTxSel
  split_ifs <;> rfl

end Sys2Proof

namespace Sys2Proof.Machine

/-! ### The rows of an edge -/

/-- The receive row is `RST` exactly at a reset edge (R80, R225). -/
theorem rxRow_eq_rst (i : Inputs) (s : State) : i.rst = true ↔ rxRow i s = .rst := by
  rw [rxRow_eq]
  cases i.rst
  · simp only [Bool.false_eq_true, false_iff, if_false]
    split_ifs
    · simp
    · simp
    · simp
    · cases completionAfter i.rxByte s <;> simp
  · simp

/-- The transmit row is `RST` exactly at a reset edge (R80, R225). -/
theorem txRow_eq_rst (i : Inputs) (s : State) : i.rst = true ↔ txRow i s = .rst := by
  rw [txRow_eq]
  cases i.rst
  · simp only [Bool.false_eq_true, false_iff, if_false]
    split_ifs <;> simp
  · simp

/-- Settles O43: the bits and the condition of a row, for every selector, and the reset bit of both selectors. -/
theorem exactlyOneRowApplies : Obligations.ExactlyOneRowApplies :=
  ⟨rxApplies_iff, txApplies_iff, fun i s => ⟨rxRow_eq_rst i s, txRow_eq_rst i s⟩⟩

/-- Settles O33: the transmit row and the handshakes are read off the same five bits. -/
theorem handshakesMatchTheRows : Obligations.HandshakesMatchTheRows := by
  intro i s
  rw [txRow_eq]
  simp only [cfgAccepted, txfAccepted, transferred, cfgReady, txfReady]
  cases i.rst
  · cases s.txBusy
    · cases i.cfgValid
      · cases i.txfValid
        · simp
        · cases i.txfType.getLsbD 1
          · cases i.txfType.getLsbD 0 <;> simp
          · simp
      · simp
    · cases i.txReady <;> simp
  · simp

/-! ### The event of an edge -/

/-- A candidate holds a byte at least, and its cursor is a cell that exists (R25). -/
theorem State.DemuxInv.cur_bounds {s : State} (h : s.DemuxInv) (hs : s.sync = true) :
    s.cur ≠ 0#7 ∧ s.cur.toNat < Config.bufDepth := by
  obtain ⟨-, hacc, -⟩ := h
  obtain ⟨h1, h19, -⟩ := hacc hs
  have hd : Config.bufDepth = 100 := rfl
  refine ⟨fun h0 => ?_, by omega⟩
  rw [h0] at h1
  exact absurd h1 (by decide)

/-- `RxEdge` from a legal state reports the event of the row that ran (R96). -/
theorem rxEdge_rxEvt {recon : IdRecon} {i : Inputs} {s t : State} (h : s.DemuxInv) (hr : i.rst = false)
    (ht : rxEdge recon i s = .next t) : eventOf (rxRow i s) = some t.rxEvt := by
  rw [rxRow_eq]
  cases hv : i.rxValid
  · rw [rxEdge_idle hv] at ht
    cases ht
    simp [hr, eventOf]
  · cases hs : s.sync
    · rw [rxEdge_searching hv hs] at ht
      cases ht
      by_cases hb : i.rxByte = marker <;> simp [hr, hb, eventOf]
    · obtain ⟨h0, hc⟩ := State.DemuxInv.cur_bounds h hs
      rw [rxEdge_accumulating hv hs hc] at ht
      cases ht
      rw [completionAfter_eq_candidate hc, State.finish]
      cases (s.storeByte i.rxByte).candidate <;> simp [hr, eventOf, h0]

/-- Settles O44: reset reports `NONE`, the receive row its event, and the transmit half leaves it. -/
theorem eventNamesTheOperation : Obligations.EventNamesTheOperation := by
  refine ⟨fun i s t h ht => ?_, fun _ _ => rfl, rfl⟩
  cases hr : i.rst
  · obtain ⟨u, hu, rfl⟩ := (edge_eq_next hr).1 ht
    obtain ⟨-, -, -, -, -, -, -, -, hevt⟩ := (txEdge_sameReceive_sameScript i u).1
    rw [hevt]
    exact rxEdge_rxEvt h.1 hr hu
  · rw [edge_of_rst hr] at ht
    cases ht
    rw [(rxRow_eq_rst i s).1 hr]
    rfl

/-! ### The step and the script -/

/-- Settles O47: the fetch changes the script alone, so the rows of the edge are those of the state before it. -/
theorem stepRunsTheDecodedRows : Obligations.StepRunsTheDecodedRows := by
  intro s
  obtain ⟨rest, hf⟩ := s.fetched_eq_script
  refine ⟨by rw [hf]; rfl, rfl, rfl, decodeRxSel_wf _ _, decodeTxSel_wf _ _, fun hr => ?_, fun hr => ?_⟩
  · simp only [step, edge, hr, if_true]
  · simp only [step, edge, hr, Bool.false_eq_true, if_false]
    rw [hf]
    rfl

/-- The inputs that the statement at the head of the script gives, and the statements left after the edge. -/
theorem State.nextInputs_of_stim {s : State} {script rest : List Stimulus} {i : Inputs} (h : s.stim = script)
    (hf : fetch s.txBusy script = some (i, rest)) : s.nextInputs = i ∧ s.fetched.stim = rest := by
  obtain ⟨hi, hs⟩ := (State.drives_of_stim h).next hf
  exact ⟨hi, by rw [hs, State.script_stim]⟩

/-- An exhausted statement makes no difference to the next edge. -/
theorem State.Drives.nextInputs_eq {s : State} {rest : List Stimulus} (h : s.Drives rest) :
    s.nextInputs = ({ s with stim := rest } : State).nextInputs ∧
    s.fetched.stim = ({ s with stim := rest } : State).fetched.stim := by
  rw [State.Drives] at h
  refine ⟨by rw [State.nextInputs, State.nextInputs, h], ?_⟩
  rw [State.fetched, State.fetched, h]
  cases fetch s.txBusy rest <;> rfl

/-- Settles O52, statement by statement; a request stays exactly while the serializer is busy. -/
theorem scriptDrivesThePorts : Obligations.ScriptDrivesThePorts := by
  intro s rest
  refine ⟨fun b bs h => State.nextInputs_of_stim h rfl, fun n h => State.nextInputs_of_stim h rfl,
    fun n h => State.nextInputs_of_stim h rfl, fun sp ft md h => ?_, fun id ty dlc d h => ?_, fun h hb => ?_,
    fun h => State.nextInputs_of_stim h rfl, fun i h => State.nextInputs_of_stim h rfl, fun h => ?_, fun h => ?_⟩
  · obtain ⟨hi, hs⟩ := State.nextInputs_of_stim h rfl
    refine ⟨hi, ?_⟩
    rw [hs, hi, h]
    cases hb : s.txBusy <;> simp [cfgAccepted, cfgReady, cfgInputs, quietInputs, hb]
  · obtain ⟨hi, hs⟩ := State.nextInputs_of_stim h rfl
    refine ⟨hi, ?_⟩
    rw [hs, hi, h]
    cases hb : s.txBusy <;> simp [txfAccepted, txfReady, txfInputs, quietInputs, hb]
  · rw [h]
    exact State.nextInputs_of_stim h (by rw [hb]; rfl)
  · rw [h]
    exact State.nextInputs_of_stim h rfl
  · have hdrives : s.Drives rest := by
      rcases h with h | h | h | ⟨h, hb⟩
      · rw [State.Drives, h, fetch]
      · rw [State.Drives, h, fetch]
      · rw [State.Drives, h, fetch]
      · rw [State.Drives, h, fetch, hb]
        rfl
    exact hdrives.nextInputs_eq

end Sys2Proof.Machine
end

section
/-! The checksum of a configuration command (R10, R111): `Sum8` counted in naturals, and what it is for the bytes that
`EncodeConfig` writes. -/

namespace Sys2Proof.Machine

/-- A sum of bytes, counted in naturals modulo 256. -/
theorem foldl_add_toNat (cell : Nat → Byte) (ks : List Nat) (a : Byte) :
    (ks.foldl (fun acc k => acc + cell k) a).toNat = (a.toNat + (ks.map fun k => (cell k).toNat).sum) % 256 := by
  induction ks generalizing a with
  | nil =>
    have := a.isLt
    simp only [List.foldl_nil, List.map_nil, List.sum_nil]
    omega
  | cons k ks ih =>
    rw [List.foldl_cons, ih, BitVec.toNat_add, List.map_cons, List.sum_cons]
    omega

/-- `Sum8` of any range of cells, counted in naturals modulo 256 (R10). -/
theorem sum8_toNat (cell : Nat → Byte) (lo hi : Nat) :
    (sum8 cell lo hi).toNat = ((List.range (hi + 1 - lo)).map fun k => (cell (lo + k)).toNat).sum % 256 := by
  have h0 : (0 : Byte).toNat = 0 := rfl
  rw [sum8, foldl_add_toNat, h0, Nat.zero_add, List.range'_eq_map_range, List.map_map]
  rfl

/-- Settles O36: byte 19 is `Sum8` of the bytes before it, and `Sum8` is the sum in naturals. -/
theorem configChecksumFormula : Obligations.ConfigChecksumFormula := by
  refine ⟨fun speed ftype mode => ?_, fun cell => sum8_toNat cell 2 18⟩
  rw [encodeConfig_eq]
  refine ⟨?_, rfl⟩
  calc (speed + ftype + mode + 0x13).toNat
      = (sum8 (fun k => (pktCfgBytes speed ftype mode (speed + ftype + mode + 0x13)).getD k 0) 2 18).toNat := by
        rw [sum8_pktCfgBytes]
    _ = _ := sum8_toNat _ 2 18

end Sys2Proof.Machine
end

section
/-! The echo of a configuration command (R114): a candidate consumed whole from Searching, event by event, and the candidate
of a command, which is incomplete up to its checksum and then consumed with no frame (R173, R175, R183, R184). -/

namespace Sys2Proof.Machine

/-! ### The events of a candidate -/

/-- The events of a run whose first byte goes on. -/
theorem consumeEvents_cons {recon : IdRecon} {b : Byte} (bs : List Byte) {s t : State}
    (h : consumeByte recon b s = .next t) : consumeEvents recon (b :: bs) s = t.rxEvt :: consumeEvents recon bs t := by
  simp only [consumeEvents, h]

/-- The events of a run in two parts, where the first part goes on. -/
theorem consumeEvents_append {recon : IdRecon} {bs : List Byte} (cs : List Byte) {s t : State}
    (h : consume recon bs s = .next t) :
    consumeEvents recon (bs ++ cs) s = consumeEvents recon bs s ++ consumeEvents recon cs t := by
  induction bs generalizing s with
  | nil =>
    cases h
    rfl
  | cons b bs ih =>
    obtain ⟨u, hb, hu⟩ := andThen_eq_next.1 h
    rw [List.cons_append, consumeEvents_cons _ hb, consumeEvents_cons _ hb, ih hu, List.cons_append]

/-- A byte that leaves a begun candidate incomplete is reported as `ACCUM` (R174, R183). -/
theorem consumeByte_holdCandidate_of_incomplete (recon : IdRecon) (s : State) {pre : List Byte} (ev : Event) {b : Byte}
    (hpre : pre ≠ []) (hlen : pre.length < Config.bufDepth)
    (hinc : (s.holdCandidate (pre ++ [b])).candidate = .incomplete) :
    consumeByte recon b ((s.holdCandidate pre).report ev) = .next ((s.holdCandidate (pre ++ [b])).report .accum) := by
  have hd : Config.bufDepth = 100 := rfl
  have hpos := List.length_pos_iff.2 hpre
  have hcur : (s.holdCandidate (pre ++ [b])).cur ≠ 1 := fun h => by
    have hnat := s.holdCandidate_cur_toNat (bs := pre ++ [b]) (by simp; omega)
    rw [h, List.length_append, List.length_singleton] at hnat
    have h1 : (1 : BitVec 7).toNat = 1 := rfl
    omega
  rw [consumeByte_holdCandidate recon s hlen, State.finish, hinc]
  simp only [if_neg hcur]

/-- Bytes that leave every longer candidate incomplete are reported as `ACCUM`, each of them (R183). -/
theorem consumeEvents_holdCandidate (recon : IdRecon) (s : State) (bs : List Byte) {pre : List Byte} (ev : Event)
    (hpre : pre ≠ []) (hlen : (pre ++ bs).length ≤ Config.bufDepth)
    (hinc : ∀ k, k < bs.length → (s.holdCandidate (pre ++ bs.take (k + 1))).candidate = .incomplete) :
    consumeEvents recon bs ((s.holdCandidate pre).report ev) = List.replicate bs.length .accum := by
  induction bs generalizing pre ev with
  | nil => rfl
  | cons b bs ih =>
    have hlt : pre.length < Config.bufDepth := by
      simp only [List.length_append, List.length_cons] at hlen
      omega
    have hbyte := consumeByte_holdCandidate_of_incomplete recon s ev hpre hlt (hinc 0 (by simp))
    have hrest := ih (pre := pre ++ [b]) .accum (by simp) (by rwa [← List.append_cons])
      fun k hk => by simpa using hinc (k + 1) (by simpa using hk)
    rw [consumeEvents_cons _ hbyte, hrest]
    rfl

/-- A candidate consumed from Searching that only its last byte can complete: the marker is reported as `SYNC`, each byte
up to the last as `ACCUM`, and the last byte finishes the candidate, held whole (R171, R193). -/
theorem consume_candidate (recon : IdRecon) {s : State} (body : List Byte) (last : Byte) (hs : s.sync = false)
    (hlen : body.length + 1 < Config.bufDepth)
    (hinc : ∀ k, k < body.length → (s.holdCandidate (marker :: body.take (k + 1))).candidate = .incomplete) :
    consume recon (marker :: (body ++ [last])) s =
      .next ((s.holdCandidate (marker :: (body ++ [last]))).finish recon) ∧
    consumeEvents recon (marker :: (body ++ [last])) s =
      .sync :: (List.replicate body.length .accum ++
        [((s.holdCandidate (marker :: (body ++ [last]))).finish recon).rxEvt]) := by
  have hmarker : consumeByte recon marker s = .next ((s.holdCandidate [marker]).report .sync) := by
    rw [consumeByte_searching hs, if_pos rfl, State.startCandidate_eq_holdCandidate]
  have hle : ([marker] ++ body).length ≤ Config.bufDepth := by simpa using hlen.le
  obtain ⟨ev, hbody⟩ := consume_holdCandidate recon s body .sync hle hinc
  have hlast := consumeByte_holdCandidate recon s (bs := [marker] ++ body) (by simpa using hlen) ev last
  have hevents := consumeEvents_holdCandidate recon s body .sync (List.cons_ne_nil marker []) hle hinc
  constructor
  · rw [consume, hmarker, andThen_next, consume_append, hbody, andThen_next, consume, hlast]
    rfl
  · rw [consumeEvents_cons _ hmarker, consumeEvents_append _ hbody, hevents, consumeEvents_cons _ hlast]
    rfl

/-! ### The candidate of a command -/

/-- A held byte is read back from its cell. -/
theorem State.holdCandidate_read_of_lt (s : State) {bs : List Byte} {k : Nat} (hk : k < bs.length) :
    Memory.read (s.holdCandidate bs).buf k = bs.getD k 0 := by
  rw [s.holdCandidate_read, List.getElem?_eq_getElem hk, List.getD_eq_getElem _ _ hk, Option.getD_some]

/-- A configuration-shaped candidate is incomplete below 20 bytes (R173). -/
theorem completionOf_configShaped_of_lt {cell : Nat → Byte} {n : Nat} (h1 : 2 ≤ n → cell 1 = tag) (hn : n < 20) :
    completionOf cell n = .incomplete := by
  have hc : complete cell n = false := by
    by_cases h2 : n < 2
    · simp [complete, h2]
    · simp [complete, h2, h1 (by omega), headerClass, hn]
  simp [completionOf, hc]

/-- A configuration-shaped candidate of 20 bytes is a command if its checksum is equal (R175, R184). -/
theorem completionOf_configShaped {cell : Nat → Byte} (h0 : cell 0 = marker) (h1 : cell 1 = tag)
    (hsum : sum8 cell 2 18 = cell 19) : completionOf cell 20 = .cfgOk := by
  simp [completionOf, complete, headerClass, checksumOk, h0, h1, hsum]

/-- The bytes of a command between its marker and its checksum (R81). -/
def cfgBody (speed ftype mode : Byte) : List Byte :=
  [tag, 0x12, speed, ftype, 0, 0, 0, 0, 0, 0, 0, 0, mode, 0x01, 0, 0, 0, 0]

/-- A command is its marker, its body and its checksum. -/
theorem pktCfgBytes_eq_cfgBody (speed ftype mode c : Byte) :
    pktCfgBytes speed ftype mode c = marker :: (cfgBody speed ftype mode ++ [c]) := rfl

/-- A command is incomplete up to its checksum (R173). -/
theorem candidate_cfgBody (s : State) (speed ftype mode : Byte) {k : Nat} (hk : k < 18) :
    (s.holdCandidate (marker :: (cfgBody speed ftype mode).take (k + 1))).candidate = .incomplete := by
  have hlen : (marker :: (cfgBody speed ftype mode).take (k + 1)).length = k + 2 := by
    simp [cfgBody]
    omega
  rw [State.candidate, s.holdCandidate_cur_toNat (by omega), hlen]
  exact completionOf_configShaped_of_lt (fun _ => s.holdCandidate_read_of_lt (by omega)) (by omega)

/-- A command with the sum of its bytes 2 to 18 as checksum is a command whole (R111, R175). -/
theorem candidate_pktCfgBytes (s : State) {speed ftype mode c : Byte} (hc : c = speed + ftype + mode + 0x13) :
    (s.holdCandidate (pktCfgBytes speed ftype mode c)).candidate = .cfgOk := by
  have hread : ∀ k, k < 20 → Memory.read (s.holdCandidate (pktCfgBytes speed ftype mode c)).buf k =
      (pktCfgBytes speed ftype mode c).getD k 0 := fun _ hk => s.holdCandidate_read_of_lt hk
  have hsum : sum8 (Memory.read (s.holdCandidate (pktCfgBytes speed ftype mode c)).buf) 2 18 = c := by
    rw [sum8_congr fun k hk => hread k (by omega), sum8_pktCfgBytes, hc]
  exact completionOf_configShaped (hread 0 (by omega)) (hread 1 (by omega)) (hsum.trans (hread 19 (by omega)).symm)

/-- Settles O39: the candidate is incomplete up to the checksum, which is the right one, and then ends with no frame. -/
theorem commandEchoLaw : Obligations.CommandEchoLaw := by
  intro recon speed ftype mode s hs
  obtain ⟨hrun, hevents⟩ := consume_candidate recon (cfgBody speed ftype mode) (speed + ftype + mode + 0x13) hs
    (show 19 < 100 by decide) fun _ hk => candidate_cfgBody s speed ftype mode hk
  rw [← pktCfgBytes_eq_cfgBody, ← encodeConfig_eq] at hrun hevents
  have hcand : (s.holdCandidate (encodeConfig speed ftype mode)).candidate = .cfgOk :=
    encodeConfig_eq speed ftype mode ▸ candidate_pktCfgBytes s rfl
  rw [State.finish, hcand] at hrun hevents
  exact ⟨hevents, _, hrun, rfl, rfl, rfl, rfl, rfl, rfl, rfl⟩

end Sys2Proof.Machine
end

section
/-! The packet of a frame request on the wire and back (R120 to R126): its descriptor and its identifier, and what the
demultiplexer makes of it from Searching. A Standard packet begins with an inbound frame of the declared length, an
Extended one with a candidate that byte 1 ends; the bytes after either are scanned. -/

namespace Sys2Proof.Machine

/-! ### The descriptor -/

/-- The descriptor of any request, bit by bit (R84, R121). -/
theorem descriptor_eq_descriptorBits (type : BitVec 2) (dlc : BitVec 4) :
    descriptor type dlc = descriptorBits (type == 0b01) dlc := by
  obtain ⟨hstd, hext⟩ := descriptor_eq dlc
  by_cases h : type = typeExtended
  · subst h
    exact hext
  · have hbit : (type == 0b01) = false := beq_false_of_ne h
    rw [hbit, ← hstd]
    simp only [descriptor, h, if_false]
    rfl

/-- Settles O37: the order of construction is that of the bits. -/
theorem descriptorFormula : Obligations.DescriptorFormula := by
  intro type dlc
  have hbits := descriptor_eq_descriptorBits type dlc
  refine ⟨?_, hbits⟩
  rw [hbits, descriptorBits_eq_or]
  simp only [beq_iff_eq]

/-! ### The identifier -/

/-- The two identifier bytes of a packet, put together again, are the low 16 bits (R122, R176). -/
theorem idRecon_identifierBytes (id : BitVec 32) :
    idRecon (id.extractLsb' 0 8) (id.extractLsb' 8 8) = id.setWidth 16 :=
  (BitVec.extractLsb'_append_extractLsb'_eq_extractLsb' rfl).trans (BitVec.setWidth_eq_extractLsb' (by decide)).symm

/-- The identifier bytes of two identifiers are equal exactly if the low 16 bits are. -/
theorem identifierBytes_eq_iff (id id' : BitVec 32) :
    id.extractLsb' 0 8 = id'.extractLsb' 0 8 ∧ id.extractLsb' 8 8 = id'.extractLsb' 8 8 ↔
      id.setWidth 16 = id'.setWidth 16 := by
  constructor
  · rintro ⟨hlo, hhi⟩
    rw [← idRecon_identifierBytes, hlo, hhi, idRecon_identifierBytes]
  · intro h
    have hbyte (k : Nat) (hk : k + 8 ≤ 16) : id.extractLsb' k 8 = id'.extractLsb' k 8 := by
      rw [← BitVec.extractLsb'_setWidth_of_le hk, h, BitVec.extractLsb'_setWidth_of_le hk]
    exact ⟨hbyte 0 (by decide), hbyte 8 (by decide)⟩

/-- Settles O38: a packet holds of its identifier the two low bytes, and the other bytes do not depend on it. -/
theorem identifierIsTruncated : Obligations.IdentifierIsTruncated := by
  refine fun id id' type dlc data => ⟨rfl, rfl, ?_⟩
  rw [← identifierBytes_eq_iff]
  simp only [encodeFrame, outFrameBytes, List.cons.injEq, true_and, and_true]

/-! ### Bytes scanned -/

/-- Bytes consumed in Searching are scanned, whatever they are (R181, R182). -/
theorem State.scans_of_searching (recon : IdRecon) {t : State} (rest : List Byte) (ht : t.sync = false) :
    t.Scans recon rest := by
  induction rest generalizing t with
  | nil => exact fun k hk => absurd hk (Nat.not_lt_zero k)
  | cons b bs ih =>
    intro k hk hm
    rw [consumeEvents_cons bs (consumeByte_searching ht)]
    cases k with
    | zero => by_cases hb : b = marker <;> simp [hb]
    | succ k =>
      rw [List.take_succ_cons, List.mem_cons, not_or] at hm
      obtain ⟨hb, hm⟩ := hm
      rw [if_neg (Ne.symm hb)]
      exact ih (t := t.report .skip) ht k (Nat.lt_of_succ_lt_succ hk) hm

/-! ### The events of an inbound frame -/

/-- An inbound frame is incomplete up to its trailer (R83, R173). -/
theorem candidate_pktFrameIn_body (s : State) {l : BitVec 4} (a b : Byte) {d : List Byte} (hd : d.length = l.toNat)
    {k : Nat} (hk : k < l.toNat + 3) :
    (s.holdCandidate (marker :: (descriptorBits false l :: a :: b :: d).take (k + 1))).candidate = .incomplete := by
  have hl := l.isLt
  have hlen : (marker :: (descriptorBits false l :: a :: b :: d).take (k + 1)).length = k + 2 := by
    simp [hd]
    omega
  rw [State.candidate, s.holdCandidate_cur_toNat (by omega), hlen]
  exact completionOf_dataShaped_of_lt (l := l) (fun _ => s.holdCandidate_read_of_lt (by omega)) (by omega)

/-- The events of an inbound frame consumed from Searching (R193). -/
theorem consumeEvents_pktFrameIn (recon : IdRecon) {l : BitVec 4} (a b : Byte) {d : List Byte} (t : Byte) {s : State}
    (hd : d.length = l.toNat) (hs : s.sync = false) :
    consumeEvents recon (pktFrameInBytes l a b d t) s =
      .sync :: (List.replicate (l.toNat + 3) .accum ++ [if l = 0 then .dropShape else .frame]) := by
  have hl := l.isLt
  have hdepth : Config.bufDepth = 100 := rfl
  have hlen : (descriptorBits false l :: a :: b :: d).length = l.toNat + 3 := by simp [hd]
  have hsplit : marker :: ((descriptorBits false l :: a :: b :: d) ++ [t]) = pktFrameInBytes l a b d t := rfl
  have hevents := (consume_candidate recon (descriptorBits false l :: a :: b :: d) t hs (by omega)
    fun k hk => candidate_pktFrameIn_body s a b hd (by omega)).2
  rw [hsplit, hlen, finish_pktFrameIn recon s a b t hd] at hevents
  rw [hevents]
  split_ifs <;> rfl

/-! ### The Standard packet -/

/-- The eight payload bytes of an outbound packet (R123). -/
def framePayload (data : BitVec 64) : List Byte := (List.range 8).map (dataByte data)

@[simp] theorem framePayload_length (data : BitVec 64) : (framePayload data).length = 8 := rfl

/-- A payload byte of the part that is declared, zero beyond it (R125). -/
theorem framePayload_take_getD (data : BitVec 64) (l : Nat) {k : Nat} (hk : k < 8) :
    ((framePayload data).take l)[k]?.getD 0 = if k < l then dataByte data k else 0 := by
  by_cases h : k < l
  · simp [framePayload, h, hk]
  · simp [h]

/-- A Standard packet with its payload as a list. -/
theorem encodeFrame_standard (id : BitVec 32) (dlc : BitVec 4) (data : BitVec 64) :
    encodeFrame id typeStandard dlc data =
      marker :: descriptorBits false dlc :: id.extractLsb' 0 8 :: id.extractLsb' 8 8 :: (framePayload data ++ [tag]) := by
  rw [encodeFrame, (descriptor_eq dlc).1]
  rfl

/-- A Standard packet that declares at most eight bytes begins with an inbound frame of those bytes; the byte after them,
a payload byte not declared or the trailer, stands for its trailer (R83, R125). -/
theorem encodeFrame_take (id : BitVec 32) {dlc : BitVec 4} (data : BitVec 64) (h : dlc.toNat ≤ 8) :
    ∃ t, (encodeFrame id typeStandard dlc data).take (dlc.toNat + 5) =
      pktFrameInBytes dlc (id.extractLsb' 0 8) (id.extractLsb' 8 8) ((framePayload data).take dlc.toNat) t := by
  have hlt : dlc.toNat < (framePayload data ++ [tag]).length := by
    rw [List.length_append, framePayload_length]
    exact Nat.lt_succ_of_le h
  refine ⟨(framePayload data ++ [tag])[dlc.toNat], ?_⟩
  have hbody : (framePayload data ++ [tag]).take (dlc.toNat + 1) =
      (framePayload data).take dlc.toNat ++ [(framePayload data ++ [tag])[dlc.toNat]] := by
    rw [List.take_succ_eq_append_getElem hlt, List.take_append_of_le_length h]
  rw [encodeFrame_standard, pktFrameInBytes, ← hbody]
  rfl

/-- A Standard packet up to the byte after its declared payload, consumed from Searching: its frame is emitted there, or
the candidate dropped if it declares no payload (R125, R187). -/
theorem consume_standardPacket (recon : IdRecon) (id : BitVec 32) {dlc : BitVec 4} (data : BitVec 64) {s : State}
    (hs : s.sync = false) (h : dlc.toNat ≤ 8) :
    consumeEvents recon ((encodeFrame id typeStandard dlc data).take (dlc.toNat + 5)) s =
      .sync :: (List.replicate (dlc.toNat + 3) .accum ++ [if dlc = 0 then .dropShape else .frame]) ∧
    ∃ u : State, u.sync = false ∧ u.cur = 0 ∧
      consume recon ((encodeFrame id typeStandard dlc data).take (dlc.toNat + 5)) s =
        .next (if dlc = 0 then u.report .dropShape
          else u.emit (inboundFrame recon dlc (id.extractLsb' 0 8) (id.extractLsb' 8 8)
            ((framePayload data).take dlc.toNat))) := by
  obtain ⟨t, htake⟩ := encodeFrame_take id data h
  have hd : ((framePayload data).take dlc.toNat).length = dlc.toNat := List.length_take_of_le h
  rw [htake]
  exact ⟨consumeEvents_pktFrameIn recon _ _ t hd hs, State.toSearching _, rfl, rfl,
    (consume_pktFrameIn recon _ _ t hd hs).trans (congrArg _ (finish_pktFrameIn recon s _ _ t hd))⟩

/-- Settles O40: the packet begins with an inbound frame, which is consumed as every inbound frame is, and what follows
is consumed in Searching. -/
theorem standardLoopbackLaw : Obligations.StandardLoopbackLaw := by
  refine ⟨fun recon id dlc data s hs h1 h8 => ?_, fun recon id data s hs => ?_⟩
  · have hdlc : dlc ≠ 0 := by
      rintro rfl
      exact absurd h1 (by decide)
    obtain ⟨hevents, u, hsync, hcur, hrun⟩ := consume_standardPacket recon id data hs h8
    rw [if_neg hdlc] at hevents hrun
    refine ⟨hevents, _, hrun, rfl, rfl, ?_, rfl, rfl, fun k hk => ?_, hsync, hcur, State.scans_of_searching recon _ hsync⟩
    · rintro rfl
      exact congrArg (BitVec.setWidth 32) (idRecon_identifierBytes id)
    · exact (dataByte_payloadPort _ hk).trans (framePayload_take_getD data dlc.toNat hk)
  · obtain ⟨hevents, u, hsync, -, hrun⟩ := consume_standardPacket recon id (dlc := 0) data hs (Nat.zero_le 8)
    exact ⟨hevents, _, hrun, hsync, rfl, State.scans_of_searching recon _ hsync⟩

/-! ### The Extended packet -/

/-- The Extended descriptor as its two nibbles (R126). -/
theorem descriptorBits_extended (l : BitVec 4) : descriptorBits true l = 0xE#4 ++ l := by
  revert l; decide

/-- The Extended descriptor is of the class `HDR.OTHER` (R86). -/
theorem headerClass_descriptorBits_extended (l : BitVec 4) : headerClass (descriptorBits true l) = .other := by
  revert l; decide

/-- A candidate whose byte 1 is of the class `HDR.OTHER` ends with it (R173, R188). -/
theorem candidate_of_headerClass_other (s : State) {b : Byte} (h : headerClass b = .other) :
    (s.holdCandidate [marker, b]).candidate = .header := by
  have hstore : (s.holdCandidate [marker]).storeByte b = s.holdCandidate [marker, b] :=
    s.holdCandidate_storeByte (by decide) b
  have hcur : (s.holdCandidate [marker]).cur.toNat < Config.bufDepth := show 1 < 100 by decide
  rw [← hstore, ← completionAfter_eq_candidate hcur, completionAfter_byteOne rfl, if_pos h]

/-- Settles O41: byte 1 ends the candidate, and what follows is consumed in Searching. -/
theorem extendedLoopbackLaw : Obligations.ExtendedLoopbackLaw := by
  intro recon id dlc data s hs
  have hdesc : descriptor typeExtended dlc = descriptorBits true dlc := (descriptor_eq dlc).2
  have htake : (encodeFrame id typeExtended dlc data).take 2 = [marker, descriptorBits true dlc] := hdesc ▸ rfl
  obtain ⟨hrun, hevents⟩ := consume_candidate recon [] (descriptorBits true dlc) hs (by decide)
    fun _ hk => absurd hk (Nat.not_lt_zero _)
  have hcand := candidate_of_headerClass_other s (headerClass_descriptorBits_extended dlc)
  rw [List.nil_append, State.finish, hcand, ← htake] at hrun hevents
  exact ⟨hdesc.trans (descriptorBits_extended dlc), hevents, _, hrun, rfl, rfl, rfl, ⟨rfl, rfl, rfl, rfl⟩, rfl,
    State.scans_of_searching recon _ rfl⟩

end Sys2Proof.Machine
end

section
/-! The transmit rows one by one (R141 to R153): which request or register selects each, and what it leaves. -/

namespace Sys2Proof.Machine

/-! ### The row of each case -/

/-- When a configuration request is accepted (R140, R141). -/
theorem cfgAccepted_iff {i : Inputs} {s : State} :
    cfgAccepted i s = true ↔ i.rst = false ∧ s.txBusy = false ∧ i.cfgValid = true := by
  simp only [cfgAccepted, cfgReady, Bool.and_eq_true, Bool.not_eq_true']
  tauto

/-- When a frame request is accepted (R140, R141, R142). -/
theorem txfAccepted_iff {i : Inputs} {s : State} :
    txfAccepted i s = true ↔ i.rst = false ∧ s.txBusy = false ∧ i.cfgValid = false ∧ i.txfValid = true := by
  simp only [txfAccepted, txfReady, Bool.and_eq_true, Bool.not_eq_true']
  tauto

/-- A configuration request at an idle serializer is accepted by `TX.CFG`, and a frame request beside it waits (R142,
R144). -/
theorem cfgRequest_accepted {i : Inputs} {s : State} (hr : i.rst = false) (hb : s.txBusy = false)
    (hc : i.cfgValid = true) :
    cfgAccepted i s = true ∧ txfAccepted i s = false ∧ txRow i s = .txCfg i.cfgSpeed i.cfgFtype i.cfgMode := by
  obtain ⟨hcfg, -⟩ := handshakesMatchTheRows i s
  have hacc : cfgAccepted i s = true := cfgAccepted_iff.2 ⟨hr, hb, hc⟩
  exact ⟨hacc, by simp [txfAccepted, txfReady, hc], hcfg.1 hacc⟩

/-- A frame request alone at an idle serializer is accepted by the row of its type (R145, R146). -/
theorem txfRequest_accepted {i : Inputs} {s : State} (hr : i.rst = false) (hb : s.txBusy = false)
    (hc : i.cfgValid = false) (hf : i.txfValid = true) :
    txfAccepted i s = true ∧
    txRow i s =
      if i.txfType = 0b00 then .txFrameStd i.txfId i.txfDlc i.txfData
      else if i.txfType = 0b01 then .txFrameExt i.txfId i.txfDlc i.txfData
      else .txReject (i.txfType == 0b11) := by
  refine ⟨txfAccepted_iff.2 ⟨hr, hb, hc, hf⟩, ?_⟩
  have hty : i.txfType = 0b00 ∨ i.txfType = 0b01 ∨ i.txfType = 0b10 ∨ i.txfType = 0b11 := by
    generalize i.txfType = ty
    revert ty
    decide
  rw [txRow_eq]
  rcases hty with h | h | h | h <;> simp [hr, hb, hc, hf, h]

/-- The effect of the transmit row of an edge is its move. -/
theorem exec_txRow_eq_apply {i : Inputs} {s : State} (hr : i.rst = false) :
    exec (txRow i s) s = .next ((txMove i s.txBusy).apply s) := by
  rw [exec_txRow hr rfl, txEdge_eq_apply]

/-- The move of a configuration request at an idle serializer (R144). -/
theorem txMove_of_cfgRequest {i : Inputs} (hc : i.cfgValid = true) :
    txMove i false = .load (encodeConfig i.cfgSpeed i.cfgFtype i.cfgMode) := by
  simp [txMove, hc]

/-- The move of a frame request of type `00` or `01` alone at an idle serializer (R145). -/
theorem txMove_of_frameRequest {i : Inputs} (hc : i.cfgValid = false) (hf : i.txfValid = true)
    (hty : i.txfType = 0b00 ∨ i.txfType = 0b01) :
    txMove i false = .load (encodeFrame i.txfId i.txfType i.txfDlc i.txfData) := by
  simp only [txMove, hc, hf, Bool.false_eq_true, if_false, if_true]
  exact if_pos hty

/-- Settles O31: the acceptance of a configuration request does not look at `txf_valid`. -/
theorem configurationWinsOverFrame : Obligations.ConfigurationWinsOverFrame :=
  fun _ _ hr hc _ hb => cfgRequest_accepted hr hb hc

/-- Settles O24: the packet register after the 20 bytes of the command, with the checksum of R88. -/
theorem configRequestIsEncoded : Obligations.ConfigRequestIsEncoded := by
  intro i s hr hb hc
  obtain ⟨hcfg, htxf, hrow⟩ := cfgRequest_accepted hr hb hc
  refine ⟨hcfg, htxf, hrow, _, rfl, rfl, ?_⟩
  rw [State.setReject_txPkt, State.loadPacket_txPkt, encodeConfig_eq]
  exact storePacket_pktCfgBytes _ _ _ _ s.txPkt

/-- Settles O25: the move of the request loads the 13 bytes of its packet, the descriptor by the formula of R121. -/
theorem frameRequestIsEncoded : Obligations.FrameRequestIsEncoded := by
  intro i s hr hb hc hf hty row
  obtain ⟨hacc, hsel⟩ := txfRequest_accepted hr hb hc hf
  have hrow : txRow i s = row := by
    rw [hsel]
    rcases hty with h | h <;> simp [row, h]
  have hexec := exec_txRow_eq_apply (s := s) hr
  rw [hrow, hb, txMove_of_frameRequest hc hf hty] at hexec
  refine ⟨hacc, hrow, _, hexec, rfl, ?_⟩
  rw [← (descriptorFormula i.txfType i.txfDlc).1]
  exact storePacket_outFrameBytes _ _ _ _ s.txPkt

/-- Settles O26: neither of the two types is that of a packet, so the row is the last one of the case split. -/
theorem errorTypedRequestIsRejected : Obligations.ErrorTypedRequestIsRejected := by
  intro i s hr hb hc hf hty
  obtain ⟨hacc, hsel⟩ := txfRequest_accepted hr hb hc hf
  refine ⟨hacc, ?_, rfl⟩
  rw [hsel]
  rcases hty with h | h <;> simp [h]

/-- Settles O28, row by row. -/
theorem waitAndIdleChangeNothing : Obligations.WaitAndIdleChangeNothing := by
  refine ⟨fun i s hr hb hrdy => ⟨?_, rfl⟩, fun i s hr hb hc hf => ⟨?_, rfl⟩⟩
  · rw [txRow_eq]
    simp [hr, hb, hrdy]
  · rw [txRow_eq]
    simp [hr, hb, hc, hf]

/-- Settles O27: within R149 the end of the packet is at the last index, and below it the index does not wrap. -/
theorem transferAdvancesOrEnds : Obligations.TransferAdvancesOrEnds := by
  intro i s hr hb hrdy h
  obtain ⟨hi, -⟩ := h.1 hb
  refine ⟨by rw [txRow_eq]; simp [hr, hb, hrdy], ?_⟩
  have hexec : exec .txXfer s = .next (s.advanceIndex.setReject false) := rfl
  have hlast : s.txIdx.toNat = s.txLen.toNat - 1 ↔ s.txIdx.toNat + 1 = s.txLen.toNat := by omega
  have hnext : BitVec.ofNat 5 (s.txIdx.toNat + 1) = s.txIdx + 1 := by simp [BitVec.ofNat_add]
  rw [hexec, State.advanceIndex, hnext]
  simp only [hlast]
  split_ifs
  · rfl
  · rfl

/-! ### The reject pulse -/

/-- The reject pulse is up after a move exactly if the move raises it (R153). -/
theorem TxMove.apply_txReject (s : State) (v : TxMove) : (v.apply s).txReject = true ↔ v = .keep true := by
  cases v <;> simp [TxMove.apply]

/-- The move that raises the pulse: a frame request alone, of type `10` or `11`, at an idle serializer (R146). -/
theorem txMove_eq_keep_true {i : Inputs} {busy : Bool} :
    txMove i busy = .keep true ↔
      busy = false ∧ i.cfgValid = false ∧ i.txfValid = true ∧
        ¬ (i.txfType = typeStandard ∨ i.txfType = typeExtended) := by
  rw [txMove]
  cases busy
  · cases i.cfgValid
    · cases i.txfValid
      · simp
      · by_cases hty : i.txfType = typeStandard ∨ i.txfType = typeExtended <;> simp [hty]
    · simp
  · cases i.txReady <;> simp

/-- The pulse after an edge with `rst = 0` is that of its move. -/
theorem edge_txReject {i : Inputs} {s t : State} (hr : i.rst = false) (ht : edge i s = .next t) :
    t.txReject = true ↔ txMove i s.txBusy = .keep true := by
  obtain ⟨-, -, -, -, hrej⟩ := edge_sameTransmit_txEdge hr ht
  rw [hrej, txEdge_eq_apply, TxMove.apply_txReject]

/-- The row is `TX.REJECT` exactly where the move raises the pulse. -/
theorem txRow_eq_txReject {i : Inputs} {s : State} (hr : i.rst = false) :
    (∃ r, txRow i s = .txReject r) ↔ txMove i s.txBusy = .keep true := by
  rw [txMove_eq_keep_true]
  constructor
  · rintro ⟨r, hrow⟩
    obtain ⟨-, htxf, -⟩ := handshakesMatchTheRows i s
    obtain ⟨-, hb, hc, hf⟩ := txfAccepted_iff.1 (htxf.2 (.inr (.inr ⟨r, hrow⟩)))
    rw [(txfRequest_accepted hr hb hc hf).2] at hrow
    refine ⟨hb, hc, hf, ?_⟩
    rintro (hty | hty) <;> simp [hty, typeStandard, typeExtended] at hrow
  · rintro ⟨hb, hc, hf, hty⟩
    obtain ⟨hstd, hext⟩ : i.txfType ≠ 0b00 ∧ i.txfType ≠ 0b01 := not_or.1 hty
    exact ⟨_, by rw [(txfRequest_accepted hr hb hc hf).2, if_neg hstd, if_neg hext]⟩

/-- A reset edge leaves the pulse down (R153). -/
theorem edge_txReject_of_rst {i : Inputs} {s t : State} (hr : i.rst = true) (ht : edge i s = .next t) :
    t.txReject = false := by
  rw [edge_of_rst hr] at ht
  cases ht
  rfl

/-- Settles O30: reset runs `RST` and clears the pulse; every other edge writes it by its move. -/
theorem rejectPulseLastsOneCycle : Obligations.RejectPulseLastsOneCycle := by
  intro i s t ht
  cases hr : i.rst
  · rw [edge_txReject hr ht, txRow_eq_txReject hr]
  · simp [edge_txReject_of_rst hr ht, (txRow_eq_rst i s).1 hr]

/-! ### The ports -/

/-- While a packet is in flight its index is that of a byte of the packet, which `tx_byte` shows (R148, R149). -/
theorem txByte_of_busy {s : State} (h : s.TxInv) (hb : s.txBusy = true) :
    ∃ hlt : s.txIdx.toNat < 20, txByte s = s.txPkt[s.txIdx.toNat] := by
  obtain ⟨hi, hl⟩ := h.1 hb
  have hlen : s.txLen.toNat ≤ 20 := by rcases hl with hl | hl <;> simp [hl]
  have hlt : s.txIdx.toNat < 20 := by omega
  exact ⟨hlt, by simp [txByte, hb, hlt]⟩

/-- An idle serializer shows `0x00` (R148). -/
theorem txByte_of_idle {s : State} (hb : s.txBusy = false) : txByte s = 0x00 := by simp [txByte, hb]

/-- Settles O32: the ready signals by their formula, `tx_byte` busy and idle. -/
theorem outboundPortsFollowTheRegisters : Obligations.OutboundPortsFollowTheRegisters := fun i s h =>
  ⟨by simp [outputs, cfgReady], by simp [outputs, txfReady, and_assoc], rfl, txByte_of_idle, txByte_of_busy h⟩

end Sys2Proof.Machine
end

section
/-! An edge whole: its rows have the effect of the pseudocode of R250, and a packet accepted leaves byte by byte (R155). -/

namespace Sys2Proof.Machine

/-- Settles O42: both kinds of edge with the parameter, and the machine at its default. -/
theorem edgeRefinesThePseudocode : Obligations.EdgeRefinesThePseudocode := by
  refine ⟨fun recon i s => ?_, fun i s => (edgeWith_default i s).symm, fun s => (stepWith_default s).symm⟩
  cases hr : i.rst
  · exact edgeWith_of_noRst hr
  · exact edgeWith_of_rst hr

/-! ### An edge from a legal state -/

/-- `RxEdge` from a legal state goes on: the cell at the cursor exists (R25, R190). -/
theorem rxEdge_goesOn (recon : IdRecon) (i : Inputs) {s : State} (h : s.DemuxInv) :
    ∃ t, rxEdge recon i s = .next t := by
  cases hv : i.rxValid
  · exact ⟨_, rxEdge_idle hv⟩
  · cases hs : s.sync
    · exact ⟨_, rxEdge_searching hv hs⟩
    · exact ⟨_, rxEdge_accumulating hv hs (State.DemuxInv.cur_bounds h hs).2⟩

/-- An edge with `rst = 0` from a legal state goes on to a legal state, and its move is on the transmit registers. -/
theorem edge_goesOn {i : Inputs} {s : State} (h : s.Inv) (hr : i.rst = false) :
    ∃ t, edge i s = .next t ∧ t.Inv ∧ ((txMove i s.txBusy).apply s).SameTransmit t := by
  obtain ⟨u, hu⟩ := rxEdge_goesOn idRecon i h.1
  have ht : edge i s = .next (txEdge i u) := (edge_eq_next hr).2 ⟨u, hu, rfl⟩
  exact ⟨_, ht, edge_inv h ht, txEdge_eq_apply i s ▸ edge_sameTransmit_txEdge hr ht⟩

/-- A configuration request accepted, or a frame request of type `00` or `01`, loads a packet (R144, R145). -/
theorem txMove_of_accepted {i : Inputs} {s : State}
    (h : cfgAccepted i s = true ∨ txfAccepted i s = true ∧ (i.txfType = 0b00 ∨ i.txfType = 0b01)) :
    ∃ bytes, txMove i s.txBusy = .load bytes := by
  rcases h with h | ⟨h, hty⟩
  · obtain ⟨-, hb, hc⟩ := cfgAccepted_iff.1 h
    exact ⟨_, hb ▸ txMove_of_cfgRequest hc⟩
  · obtain ⟨-, hb, hc, hf⟩ := txfAccepted_iff.1 h
    exact ⟨_, hb ▸ txMove_of_frameRequest hc hf hty⟩

/-! ### The packet in flight -/

/-- In the legal state `v` the packet of `u` is in flight, and `k` bytes of it are out. -/
structure State.Sending (u v : State) (k : Nat) : Prop where
  inv : v.Inv
  busy : v.txBusy = true
  idx : v.txIdx.toNat = k
  len : v.txLen = u.txLen
  pkt : v.txPkt = u.txPkt

/-- An accepted request leaves its packet in flight with no byte out (R144, R145). -/
theorem edge_of_accepted {i : Inputs} {s : State} (h : s.Inv) (hr : i.rst = false)
    (hacc : cfgAccepted i s = true ∨ txfAccepted i s = true ∧ (i.txfType = 0b00 ∨ i.txfType = 0b01)) :
    ∃ u, edge i s = .next u ∧ u.Sending u 0 := by
  obtain ⟨u, hu, hinv, hsame⟩ := edge_goesOn h hr
  obtain ⟨bytes, hmove⟩ := txMove_of_accepted hacc
  rw [hmove] at hsame
  obtain ⟨hb, hi, -⟩ := hsame
  exact ⟨u, hu, hinv, hb, congrArg BitVec.toNat hi, rfl, rfl⟩

section Transfers
variable {u v : State} {k : Nat} {i : Inputs}

/-- An edge that takes a byte makes the move of a transfer (R147). -/
theorem State.Sending.edge_advances (h : u.Sending v k) (hr : i.rst = false) (hrdy : i.txReady = true) :
    ∃ w, edge i v = .next w ∧ w.Inv ∧ (v.advanceIndex.setReject false).SameTransmit w := by
  have hmove : txMove i v.txBusy = .advance := by simp [txMove, h.busy, hrdy]
  have hedge := edge_goesOn h.inv hr
  rwa [hmove] at hedge

/-- Below the last byte one more byte is out. -/
theorem State.Sending.edge_of_lt (h : u.Sending v k) (hk : k + 1 < u.txLen.toNat) (hr : i.rst = false)
    (hrdy : i.txReady = true) : ∃ w, edge i v = .next w ∧ u.Sending w (k + 1) := by
  obtain ⟨w, hw, hinv, hb, hi, hl, hp, -⟩ := h.edge_advances hr hrdy
  have hlt : v.txIdx.toNat + 1 < v.txLen.toNat := by rwa [h.idx, h.len]
  refine ⟨w, hw, hinv, ?_, ?_, hl.trans h.len, hp.trans h.pkt⟩
  · rw [hb, State.setReject_txBusy, State.advanceIndex_txBusy, if_neg hlt.ne, h.busy]
  · rw [hi, State.setReject_txIdx, advanceIndex_txIdx_toNat hlt, h.idx]

/-- At the last byte the packet ends (R147). -/
theorem State.Sending.edge_of_last (h : u.Sending v k) (hk : k + 1 = u.txLen.toNat) (hr : i.rst = false)
    (hrdy : i.txReady = true) : ∃ w, edge i v = .next w ∧ w.txBusy = false := by
  obtain ⟨w, hw, -, hb, -⟩ := h.edge_advances hr hrdy
  have hlast : v.txIdx.toNat + 1 = v.txLen.toNat := by rwa [h.idx, h.len]
  exact ⟨w, hw, by rw [hb, State.setReject_txBusy, State.advanceIndex_txBusy, if_pos hlast]⟩

/-- A run of ready edges that does not reach the end of the packet puts out as many bytes as it has edges. -/
theorem State.Sending.run (h : u.Sending v k) {is : List Inputs} (hk : k + is.length < u.txLen.toNat)
    (his : ∀ j ∈ is, j.rst = false ∧ j.txReady = true) :
    ∃ w, runEdges is v = .next w ∧ u.Sending w (k + is.length) := by
  induction is generalizing v k with
  | nil => exact ⟨v, rfl, h⟩
  | cons i is ih =>
    rw [List.length_cons, Nat.add_comm is.length, ← Nat.add_assoc] at hk ⊢
    obtain ⟨⟨hr, hrdy⟩, his⟩ := List.forall_mem_cons.1 his
    obtain ⟨w, hw, hsend⟩ := h.edge_of_lt (by omega) hr hrdy
    obtain ⟨x, hx, hsend'⟩ := ih hsend hk his
    exact ⟨x, runEdges_cons_eq_next.2 ⟨w, hw, hx⟩, hsend'⟩

/-- A run of ready edges as long as what is left of the packet ends it. -/
theorem State.Sending.run_to_end (h : u.Sending v k) {is : List Inputs} (hne : is ≠ [])
    (hk : k + is.length = u.txLen.toNat) (his : ∀ j ∈ is, j.rst = false ∧ j.txReady = true) :
    ∃ w, runEdges is v = .next w ∧ w.txBusy = false := by
  obtain ⟨js, j, rfl⟩ := (List.eq_nil_or_concat' is).resolve_left hne
  obtain ⟨hjs, hj⟩ := List.forall_mem_append.1 his
  obtain ⟨hr, hrdy⟩ := hj j List.mem_cons_self
  rw [List.length_append, List.length_singleton] at hk
  obtain ⟨x, hx, hsend⟩ := h.run (by omega) hjs
  obtain ⟨w, hw, hidle⟩ := hsend.edge_of_last (by omega) hr hrdy
  refine ⟨w, ?_, hidle⟩
  rw [runEdges_append, hx, andThen_next]
  exact runEdges_cons_eq_next.2 ⟨w, hw, rfl⟩

end Transfers

/-- The byte shown after `k` transfers is byte `k` of the packet (R148, R155). -/
theorem State.Sending.txByte_eq {u v : State} {k : Nat} (h : u.Sending v k) (hk : k < 20) : txByte v = u.txPkt[k] := by
  obtain ⟨⟨-, htx, -⟩, hb, rfl, -, hp⟩ := h
  obtain ⟨hlt, hbyte⟩ := txByte_of_busy htx hb
  simp only [hbyte, hp]

/-- Settles O34: the packet is in flight after the acceptance, by induction over the edges with one more byte out after
each, and the last one ends it. -/
theorem packetLeavesByteByByte : Obligations.PacketLeavesByteByByte := by
  intro s i is h hr hacc his
  obtain ⟨u, hu, hsend⟩ := edge_of_accepted h hr hacc
  obtain ⟨-, hlen⟩ := hsend.inv.2.1.1 hsend.busy
  refine ⟨u, hu, hlen, fun h20 hlt => ?_, fun hend => ?_⟩
  · obtain ⟨v, hv, hsend'⟩ := hsend.run (by omega) his
    rw [Nat.zero_add] at hsend'
    exact ⟨v, hv, hsend'.busy, hsend'.idx, hsend'.txByte_eq h20,
      fun j => by simp [cfgReady, txfReady, hsend'.busy]⟩
  · have hne : is ≠ [] := by
      rintro rfl
      rcases hlen with hlen | hlen <;> simp [hlen] at hend
    obtain ⟨v, hv, hidle⟩ := hsend.run_to_end hne (by omega) his
    exact ⟨v, hv, hidle, txByte_of_idle hidle, fun j hj => by simp [cfgReady, hj, hidle]⟩

end Sys2Proof.Machine
end

section
/-! What a dutiful host's run presents and sees (R153, R234, R260): the link, the count of commands and the mark of a
part-presented echo, followed along a run. -/

namespace Sys2Proof.Machine

/-! ### No reject -/

/-- A frame request of a kind the link carries is never rejected (R146, R234). -/
theorem txReject_of_keepsFrameDuty {i : Inputs} {s t : State} (hd : i.keepsFrameDuty) (ht : edge i s = .next t) :
    t.txReject = false := by
  cases hr : i.rst
  · refine Bool.eq_false_iff.2 fun hrej => ?_
    obtain ⟨-, -, hf, hty⟩ := txMove_eq_keep_true.1 ((edge_txReject hr ht).1 hrej)
    obtain ⟨h2, h3, -⟩ := hd hf
    revert hty h2 h3
    generalize i.txfType = ty
    revert ty
    decide
  · exact edge_txReject_of_rst hr ht

/-! ### The bytes presented -/

/-- The bytes presented from the first edge on. -/
theorem presentedBytes_cons (i : Inputs) (is : List Inputs) :
    presentedBytes (i :: is) = if i.rxValid then i.rxByte :: presentedBytes is else presentedBytes is := by
  cases hv : i.rxValid <;> simp [presentedBytes, hv]

/-- A dutiful edge with a byte presents the first byte of the link (R234). -/
theorem link_eq_cons_of_byteDuty {m : HostMemory} {i : Inputs} (hd : byteDuty m i) (hv : i.rxValid = true) :
    ∃ b, m.link = b :: m.link.tail ∧ b.byte = i.rxByte := by
  have hhead := hd hv
  cases hl : m.link with
  | nil => simp [hl] at hhead
  | cons b bs => exact ⟨b, rfl, by simpa [hl] using hhead⟩

/-- A dutiful run presents the link's bytes in order, each once, and sees no reject. -/
theorem presentedBytes_of_keepsDuties {h : HostParams} {m : HostMemory} {is : List Inputs} {s t : State}
    (hd : keepsDuties h m is s = true) (ht : runEdges is s = .next t) :
    presentedBytes is <+: m.link.map LinkByte.byte ∧ (is ≠ [] → t.txReject = false) := by
  induction is generalizing m s with
  | nil => exact ⟨List.nil_prefix, fun hne => absurd rfl hne⟩
  | cons i is ih =>
    obtain ⟨u, hu, ht⟩ := runEdges_cons_eq_next.1 ht
    rw [keepsDuties_cons h m is hu, Bool.and_eq_true, edgeDuty_iff] at hd
    obtain ⟨⟨-, hbyte, -, hframe, -⟩, hd⟩ := hd
    obtain ⟨hpre, hrej⟩ := ih hd ht
    refine ⟨?_, fun _ => ?_⟩
    · rw [presentedBytes_cons]
      cases hv : i.rxValid
      · simpa [HostMemory.after, hv] using hpre
      · obtain ⟨b, hl, hb⟩ := link_eq_cons_of_byteDuty hbyte hv
        rw [hl, if_pos rfl, List.map_cons, hb]
        simpa [HostMemory.after, hv] using hpre
    · cases is with
      | nil =>
        cases ht
        exact txReject_of_keepsFrameDuty hframe hu
      | cons j js => exact hrej (List.cons_ne_nil j js)

/-! ### The host's memory along a run -/

/-- No byte of a part-presented echo. -/
def LinkByte.Whole (b : LinkByte) : Prop := ∀ n, b.origin ≠ .echoPart n

/-- After the run `is` from the state `s` the memory `m` has become `m'`: the bytes presented are gone from the link and
the commands accepted are counted; and if the mark of a part-presented echo is down and no edge was a reset edge, it was
down before and no byte presented was of such an echo. -/
structure HostMemory.Becomes (m : HostMemory) (is : List Inputs) (s : State) (m' : HostMemory) : Prop where
  link : m'.link = m.link.drop (presentedBytes is).length
  commands : m'.commands = m.commands + (acceptedCommands is s).length
  whole : m'.partEcho = false → (∀ i ∈ is, i.rst = false) →
    m.partEcho = false ∧ ∀ b ∈ m.link.take (presentedBytes is).length, b.Whole

/-- The mark of a part-presented echo is down after an edge without reset only if it was, and the byte presented was of no
such echo. -/
theorem HostMemory.after_partEcho {h : HostParams} {m : HostMemory} {i : Inputs} {s : State} (hr : i.rst = false) :
    (m.after h i s).partEcho = false ↔
      m.partEcho = false ∧ (i.rxValid = true → ∀ b ∈ m.link.head?, b.Whole) := by
  simp only [HostMemory.after, hr, Bool.not_false, Bool.true_and, Bool.or_eq_false_iff]
  refine and_congr_right fun _ => ?_
  cases i.rxValid with
  | false => simp
  | true =>
    cases m.link.head? with
    | none => simp
    | some b => cases ho : b.origin <;> simp [LinkByte.Whole, ho]

/-- One edge more in front of a run. -/
theorem HostMemory.Becomes.cons {h : HostParams} {m m' : HostMemory} {i : Inputs} {is : List Inputs} {s u : State}
    (hu : edge i s = .next u) (hm : (m.after h i s).Becomes is u m') : m.Becomes (i :: is) s m' := by
  obtain ⟨hlink, hcommands, hwhole⟩ := hm
  refine ⟨?_, ?_, fun hp hr => ?_⟩
  · rw [hlink, presentedBytes_cons]
    cases hv : i.rxValid <;> simp [HostMemory.after, hv]
  · rw [hcommands, acceptedCommands, alongEdges_cons _ is hu]
    cases hc : cfgAccepted i s
    · simp [HostMemory.after, hc]
    · simp [HostMemory.after, hc, Nat.add_assoc, Nat.add_comm 1]
  · obtain ⟨hri, hris⟩ := List.forall_mem_cons.1 hr
    obtain ⟨hp', htake⟩ := hwhole hp hris
    obtain ⟨hpart, hhead⟩ := (HostMemory.after_partEcho hri).1 hp'
    refine ⟨hpart, ?_⟩
    rw [presentedBytes_cons]
    cases hv : i.rxValid
    · simpa [HostMemory.after, hv] using htake
    · cases hl : m.link with
      | nil => simp
      | cons b bs =>
        rw [if_pos rfl, List.length_cons, List.take_succ_cons]
        refine List.forall_mem_cons.2 ⟨hhead hv b (by simp [hl]), ?_⟩
        simpa [HostMemory.after, hv, hl] using htake

/-- The host's memory before the last edge of a dutiful run, which keeps the duties of that edge. -/
theorem becomes_of_keepsDuties_concat {h : HostParams} {m : HostMemory} {is : List Inputs} {j : Inputs} {s u : State}
    (hd : keepsDuties h m (is ++ [j]) s = true) (hu : runEdges is s = .next u) :
    ∃ m', m.Becomes is s m' ∧ edgeDuty h m' j = true := by
  induction is generalizing m s with
  | nil =>
    simp only [List.nil_append, keepsDuties, Bool.and_eq_true] at hd
    exact ⟨m, ⟨rfl, rfl, fun hp _ => ⟨hp, List.forall_mem_nil _⟩⟩, hd.1⟩
  | cons i is ih =>
    obtain ⟨w, hw, hu⟩ := runEdges_cons_eq_next.1 hu
    rw [List.cons_append, keepsDuties_cons h m _ hw, Bool.and_eq_true] at hd
    obtain ⟨-, hd⟩ := hd
    obtain ⟨m', hm, hj⟩ := ih hd hu
    exact ⟨m', hm.cons hw, hj⟩

/-- Settles O35: an edge at a time for the pulse and the link; at a frame request the host's memory, followed along the
run, says that the echo is drained. -/
theorem dutifulHostIsNeverRejected : Obligations.DutifulHostIsNeverRejected := by
  refine ⟨fun _ _ _ => txReject_of_keepsFrameDuty, fun _ _ _ _ _ => presentedBytes_of_keepsDuties,
    fun h m is j s u hd hu hf => ?_⟩
  obtain ⟨m', ⟨hlink, hcommands, hwhole⟩, hj⟩ := becomes_of_keepsDuties_concat hd hu
  obtain ⟨-, -, -, -, -, -, hecho⟩ := (edgeDuty_iff h m' j).1 hj
  obtain ⟨hleft, hpart⟩ := (echoDrained_iff m').1 (hecho hf).2
  rw [hlink, hcommands] at hleft
  refine ⟨fun b hb n ho => hleft b hb n ?_, fun hr => (hwhole hpart hr).2⟩
  rcases ho with ho | ho <;> rw [ho] <;> rfl

end Sys2Proof.Machine
end

section
/-! How long a candidate is (R85, R173, R189, R194): byte 1 alone decides it, a candidate begun at a marker is held
below that length, and its last byte ends it. -/

namespace Sys2Proof.Machine

/-- The length that the class of a byte gives, by the tests of R86 (R85). -/
theorem headerClass_length (b : Byte) :
    (headerClass b).length =
      if b = tag then 20 else if hiNibble b = 0xC then (loNibble b).toNat + 5 else 2 := by
  unfold headerClass
  split_ifs <;> rfl

/-- A candidate is complete from the length on that its byte 1 gives, and never before byte 1 is in (R173). -/
theorem complete_iff_length_le (cell : Nat → Byte) (n : Nat) :
    complete cell n = true ↔ 2 ≤ n ∧ (headerClass (cell 1)).length ≤ n := by
  by_cases hn : n < 2
  · simp only [complete, if_pos hn, Bool.false_eq_true, false_iff]
    omega
  · rw [complete, if_neg hn]
    cases headerClass (cell 1) <;> simp [HeaderClass.length] <;> omega

/-- Settles O15: the class of byte 1 gives the length. -/
theorem lengthIsDecidedByByteOne : Obligations.LengthIsDecidedByByteOne := fun cell n =>
  headerClass_length (cell 1) ▸ complete_iff_length_le cell n

/-- Settles O16: the class of `0xC8` gives a length of 13. -/
theorem completenessBoundaryIsExact : Obligations.CompletenessBoundaryIsExact := by
  intro cell h1
  have hlen : (headerClass (cell 1)).length = 13 := h1 ▸ rfl
  refine ⟨Bool.eq_false_iff.2 fun h => ?_, (complete_iff_length_le cell 13).2 (by omega)⟩
  have := ((complete_iff_length_le cell 12).1 h).2
  omega

/-! ### A candidate from its marker to its last byte -/

/-- No class gives more than 20 bytes, nor fewer than two (R85). -/
theorem headerClass_length_bounds (b : Byte) : 2 ≤ (headerClass b).length ∧ (headerClass b).length ≤ 20 := by
  cases headerClass b with
  | config => decide
  | data l =>
    have := l.isLt
    simp only [HeaderClass.length]
    omega
  | other => decide

/-- Below the length its byte 1 gives, a candidate that starts at a marker is incomplete. -/
theorem candidate_take_of_lt (s : State) {b1 : Byte} {bs : List Byte} {k : Nat} (hk : k < (b1 :: bs).length)
    (hlt : k + 2 < (headerClass b1).length) :
    (s.holdCandidate (marker :: (b1 :: bs).take (k + 1))).candidate = .incomplete := by
  have hlen : (marker :: (b1 :: bs).take (k + 1)).length = k + 2 := by
    rw [List.length_cons, List.length_take_of_le hk]
  obtain ⟨-, h20⟩ := headerClass_length_bounds b1
  have hb1 : Memory.read (s.holdCandidate (marker :: (b1 :: bs).take (k + 1))).buf 1 = b1 :=
    s.holdCandidate_read_of_lt (by omega)
  have hc : complete (Memory.read (s.holdCandidate (marker :: (b1 :: bs).take (k + 1))).buf) (k + 2) = false := by
    refine Bool.eq_false_iff.2 fun hc => ?_
    have hle := ((complete_iff_length_le _ _).1 hc).2
    rw [hb1] at hle
    omega
  rw [State.candidate, s.holdCandidate_cur_toNat (by omega), hlen, completionOf, hc]
  rfl

/-- A candidate that is complete ends in Searching (R171 step 3). -/
theorem State.finish_of_complete (recon : IdRecon) {t : State}
    (h : complete (Memory.read t.buf) t.cur.toNat = true) :
    (t.finish recon).sync = false ∧ (t.finish recon).cur = 0 := by
  rcases t.finish_cases recon with ⟨hi, -⟩ | ⟨-, hf⟩ | ⟨ev, -, hf⟩
  · rw [State.complete_of_candidate_incomplete hi] at h
    cases h
  · rw [hf]
    exact ⟨rfl, rfl⟩
  · rw [hf]
    exact ⟨rfl, rfl⟩

/-- Below its length a candidate that starts at a marker is held (R183, R194). -/
theorem consume_take_candidate (recon : IdRecon) {s : State} {b1 : Byte} {bs : List Byte} (hs : s.sync = false)
    (hlen : (marker :: b1 :: bs).length = (headerClass b1).length) {k : Nat} (hk : k < (b1 :: bs).length) :
    ∃ ev, consume recon (marker :: (b1 :: bs).take k) s =
      .next ((s.holdCandidate (marker :: (b1 :: bs).take k)).report ev) := by
  have hd : Config.bufDepth = 100 := rfl
  obtain ⟨-, h20⟩ := headerClass_length_bounds b1
  rw [List.length_cons] at hlen
  have htake : ((b1 :: bs).take k).length = k := List.length_take_of_le hk.le
  have hinc : ∀ j, j < ((b1 :: bs).take k).length →
      (s.holdCandidate ([marker] ++ ((b1 :: bs).take k).take (j + 1))).candidate = .incomplete := by
    intro j hj
    rw [List.take_take, Nat.min_eq_left (by omega)]
    exact candidate_take_of_lt s (by omega) (by omega)
  obtain ⟨ev, h⟩ := consume_holdCandidate recon s ((b1 :: bs).take k) (pre := [marker]) .sync
    (by rw [List.length_append, htake, List.length_singleton]; omega) hinc
  refine ⟨ev, ?_⟩
  rw [consume, consumeByte_searching hs, if_pos rfl, andThen_next, State.startCandidate_eq_holdCandidate, h]
  rfl

/-- At its length a candidate that starts at a marker has been held whole and is finished (R194). -/
theorem consume_whole_candidate (recon : IdRecon) {s : State} {b1 : Byte} {bs : List Byte} (hs : s.sync = false)
    (hlen : (marker :: b1 :: bs).length = (headerClass b1).length) :
    consume recon (marker :: b1 :: bs) s = .next ((s.holdCandidate (marker :: b1 :: bs)).finish recon) := by
  have hd : Config.bufDepth = 100 := rfl
  obtain ⟨-, h20⟩ := headerClass_length_bounds b1
  rw [List.length_cons, List.length_cons] at hlen
  have htake : ((b1 :: bs).take bs.length).length = bs.length := List.length_take_of_le (Nat.le_succ _)
  have hlast : (b1 :: bs).take bs.length ++ [(b1 :: bs)[bs.length]] = b1 :: bs := by
    rw [List.take_append_getElem]
    exact List.take_length (l := b1 :: bs)
  have hrun := (consume_candidate recon ((b1 :: bs).take bs.length) (b1 :: bs)[bs.length] hs (by omega)
    fun j hj => by
      rw [List.take_take, Nat.min_eq_left (by omega)]
      exact candidate_take_of_lt s (by rw [List.length_cons]; omega) (by omega)).1
  rwa [hlast] at hrun

/-- Settles O17: by induction over the bytes each of them is held while the length is not reached, and the last one
completes the candidate. -/
theorem candidateCompletesAtItsLength : Obligations.CandidateCompletesAtItsLength := by
  intro recon s b1 bs hs hlen
  have hlen' : (marker :: b1 :: bs).length = (headerClass b1).length := hlen.trans (headerClass_length b1).symm
  obtain ⟨h2, h20⟩ := headerClass_length_bounds b1
  refine ⟨fun k h0 (hk : k < (marker :: b1 :: bs).length) => ?_, ?_⟩
  · obtain ⟨k, rfl⟩ := Nat.exists_eq_add_one_of_ne_zero h0.ne'
    obtain ⟨ev, h⟩ := consume_take_candidate recon hs hlen' (Nat.lt_of_succ_lt_succ hk)
    have hk' : (marker :: (b1 :: bs).take k).length = k + 1 := by
      rw [List.length_cons, List.length_take_of_le (Nat.lt_of_succ_lt_succ hk).le]
    refine ⟨_, h, rfl, (s.holdCandidate_cur_toNat (by omega)).trans hk', fun j hj => ?_⟩
    have hcell : (marker :: (b1 :: bs).take k)[j]? = (marker :: b1 :: bs)[j]? := by
      rw [← List.take_succ_cons, List.getElem?_take_of_lt hj]
    have hget := List.getElem?_eq_getElem (hj.trans hk)
    rw [State.report_buf, s.holdCandidate_read, hcell, hget, Option.getD_some]
    exact hget
  · refine ⟨_, consume_whole_candidate recon hs hlen', State.finish_of_complete recon ?_⟩
    rw [s.holdCandidate_cur_toNat (by omega)]
    refine (complete_iff_length_le _ _).2 ⟨by omega, ?_⟩
    rw [s.holdCandidate_read_of_lt (by omega)]
    exact hlen'.ge

end Sys2Proof.Machine
end

section
/-! The receive rows one by one (R180 to R188): which bytes and registers select each, and what it leaves. -/

namespace Sys2Proof.Machine

/-! ### The rows outside a candidate -/

/-- No byte selects `RX.IDLE`. -/
theorem rxRow_idle {i : Inputs} {s : State} (hr : i.rst = false) (hv : i.rxValid = false) : rxRow i s = .rxIdle := by
  simp [rxRow_eq, hr, hv]

/-- Settles O3: without a byte the row is `RX.IDLE`, an event alone. -/
theorem idleLeavesDemuxUnchanged : Obligations.IdleLeavesDemuxUnchanged :=
  fun _ _ hr hv => ⟨rxRow_idle hr hv, rfl⟩

/-- The row of a byte in Searching. -/
theorem rxRow_searching {i : Inputs} {s : State} (hr : i.rst = false) (hv : i.rxValid = true) (hs : s.sync = false) :
    rxRow i s = if i.rxByte = marker then .rxSync else .rxSkip i.rxByte := by
  rw [rxRow, rxSelector, hr, hv, hs]
  exact decodeRxSel_skipWord _ _

/-- Settles O4: the row of a byte that is not the marker, an event alone. -/
theorem searchingSkipsAllButMarker : Obligations.SearchingSkipsAllButMarker :=
  fun _ _ hr hv hs hb => ⟨(rxRow_searching hr hv hs).trans (if_neg hb), rfl⟩

/-- An edge that goes from Searching to Accumulating consumes the marker (R182). -/
theorem edge_enters {i : Inputs} {s t : State} (ht : edge i s = .next t) (hs : s.sync = false)
    (hy : t.sync = true) :
    i.rst = false ∧ i.rxValid = true ∧ i.rxByte = marker := by
  cases hr : i.rst
  · obtain ⟨u, hu, rfl⟩ := (edge_eq_next hr).1 ht
    obtain ⟨hsync, -⟩ := (txEdge_sameReceive_sameScript i u).1
    rw [hsync] at hy
    cases hv : i.rxValid
    · rw [rxEdge_idle hv] at hu
      cases hu
      rw [State.report_sync, hs] at hy
      cases hy
    · rw [rxEdge_searching hv hs] at hu
      cases hu
      refine ⟨rfl, rfl, by_contra fun hb => ?_⟩
      rw [if_neg hb, State.report_sync, hs] at hy
      cases hy
  · rw [edge_of_rst hr] at ht
    cases ht
    cases hy

/-- Settles O5: the row of the marker in Searching, and no other edge leaves Searching. -/
theorem markerEntersAccumulating : Obligations.MarkerEntersAccumulating := by
  refine ⟨fun i s hr hv hs hb => ⟨(rxRow_searching hr hv hs).trans (if_pos hb), rfl⟩, fun i s t ht hs hy => ?_⟩
  obtain ⟨hr, hv, hb⟩ := edge_enters ht hs hy
  exact (rxRow_searching hr hv hs).trans (if_pos hb)

/-! ### The rows that append -/

/-- The row of a byte in Accumulating, by what the candidate is after the append. -/
theorem rxRow_accumulating {i : Inputs} {s : State} (hr : i.rst = false) (hv : i.rxValid = true)
    (hs : s.sync = true) :
    rxRow i s = decodeRxSel (0b011#3 ++ i.rxByte) (completionAfter i.rxByte s) := by
  rw [rxRow, rxSelector, hr, hv, hs]
  rfl

/-- An append that ends a candidate with no frame, at a cell that exists. -/
theorem dropAfter_of_cur {s : State} {n : Nat} (hc : s.cur.toNat = n) (hn : n < Config.bufDepth) (ev : Event)
    (b : Byte) :
    dropAfter ev b s =
      .next { s with buf := Memory.write s.buf n b, sync := false, cur := 0, rxEvt := ev, rxfValid := false } := by
  subst hc
  exact dropAfter_eq_next.2 ⟨hn, rfl⟩

/-- An append to a begun candidate that stays incomplete, at a cell that exists. -/
theorem appendAfter_of_pos {s : State} (h1 : 1 ≤ s.cur.toNat) (hc : s.cur.toNat < Config.bufDepth) (b : Byte) :
    appendAfter b s =
      .next { s with
        buf := Memory.write s.buf s.cur.toNat b
        cur := s.cur + 1
        rxEvt := .accum
        rxfValid := false } := by
  have hcur : (s.storeByte b).cur ≠ 1 := fun h => by
    have hnat := storeByte_cur_toNat (b := b) hc
    have hone : (1 : BitVec 7).toNat = 1 := rfl
    rw [h, hone] at hnat
    omega
  refine appendAfter_eq_next.2 ⟨hc, ?_⟩
  rw [if_neg hcur]
  rfl

/-- Settles O6: a candidate that stays incomplete is below the length its byte 1 gives, so its cursor is that of a
cell. -/
theorem accumAppendsTheByte : Obligations.AccumAppendsTheByte := by
  intro i s hr hv hs h1 hinc
  have hd : Config.bufDepth = 100 := rfl
  have hafter : completionAfter i.rxByte s = .incomplete := by
    rw [completionAfter, completionOf, hinc]
    rfl
  have hbounds := incomplete_bounds (by omega) hinc
  have hc : s.cur.toNat < Config.bufDepth := by
    have := (loNibble (Memory.read (Memory.write s.buf s.cur.toNat i.rxByte) 1)).isLt
    omega
  refine ⟨?_, appendAfter_of_pos h1 hc i.rxByte, storeByte_cur_toNat (b := i.rxByte) hc, ?_⟩
  · rw [rxRow_accumulating hr hv hs, decodeRxSel_accumWord, hafter]
  · exact hbounds.imp id And.right

/-- What a candidate with the bytes `AA 55` is at 20 bytes (R175, R184, R185). -/
theorem completionOf_configShaped_eq {cell : Nat → Byte} (h0 : cell 0 = marker) (h1 : cell 1 = tag) :
    completionOf cell 20 = if checksumOk cell then .cfgOk else .cfgBad := by
  simp [completionOf, complete, headerClass, h0, h1]

/-- The twentieth byte of a candidate as its checksum, counted in naturals (R10, R175). -/
theorem checksumOk_write (m : Memory) (b : Byte) :
    checksumOk (Memory.read (Memory.write m 19 b)) =
      decide (((List.range 17).map fun k => (Memory.read m (2 + k)).toNat).sum % 256 = b.toNat) := by
  have hsum : sum8 (Memory.read (Memory.write m 19 b)) 2 18 = sum8 (Memory.read m) 2 18 :=
    sum8_congr fun k hk => Memory.read_write_ne m b (by omega)
  rw [checksumOk, hsum, Memory.read_write_same, beq_eq_decide, ← sum8_toNat (Memory.read m) 2 18]
  exact decide_eq_decide.2 BitVec.toNat_inj.symm

/-- The twentieth byte of a configuration-shaped candidate decides by the checksum (R184, R185). -/
theorem completionAfter_configShaped {s : State} (hc : s.cur = 19) (h0 : Memory.read s.buf 0 = marker)
    (h1 : Memory.read s.buf 1 = tag) (b : Byte) :
    completionAfter b s =
      if ((List.range 17).map fun k => (Memory.read s.buf (2 + k)).toNat).sum % 256 = b.toNat then .cfgOk
      else .cfgBad := by
  have h19 : s.cur.toNat = 19 := hc ▸ rfl
  rw [completionAfter, h19, completionOf_configShaped_eq, checksumOk_write]
  · simp only [decide_eq_true_eq]
  · rw [Memory.read_write_ne _ _ (by omega), h0]
  · rw [Memory.read_write_ne _ _ (by omega), h1]

/-- Settles O7: the candidate is configuration-shaped and its checksum is right. -/
theorem configEchoIsConsumedSilently : Obligations.ConfigEchoIsConsumedSilently := by
  intro i s hr hv hs hc h0 h1 hsum
  refine ⟨?_, dropAfter_of_cur (hc ▸ rfl) (by decide) .cfgOk i.rxByte⟩
  rw [rxRow_accumulating hr hv hs, decodeRxSel_accumWord, completionAfter_configShaped hc h0 h1, if_pos hsum]

/-- Settles O8: the candidate is configuration-shaped and its checksum is wrong. -/
theorem wrongChecksumIsDropped : Obligations.WrongChecksumIsDropped := by
  intro i s hr hv hs hc h0 h1 hsum
  refine ⟨?_, dropAfter_of_cur (hc ▸ rfl) (by decide) .dropCksum i.rxByte⟩
  rw [rxRow_accumulating hr hv hs, decodeRxSel_accumWord, completionAfter_configShaped hc h0 h1, if_neg hsum]

/-- A candidate of declared length 0 is too short at its fifth byte, whatever its byte 0 is (R187). -/
theorem completionOf_zeroLength {cell : Nat → Byte} (h1 : cell 1 = descriptorBits false 0) :
    completionOf cell 5 = .short := by
  have hc : complete cell 5 = true := by simp [complete, h1, headerClass_descriptorBits]
  have hhi : hiNibble (cell 1) = 0xC := h1 ▸ rfl
  simp [completionOf, hc, hhi]

/-- Settles O10: five bytes are complete for a declared length of 0, and no frame. -/
theorem zeroLengthFrameIsDropped : Obligations.ZeroLengthFrameIsDropped := by
  intro i s hr hv hs hc h1
  have h4 : s.cur.toNat = 4 := hc ▸ rfl
  have hafter : completionAfter i.rxByte s = .short := by
    rw [completionAfter, h4]
    exact completionOf_zeroLength ((Memory.read_write_ne _ _ (by omega)).trans h1)
  refine ⟨?_, dropAfter_of_cur h4 (by decide) .dropShape i.rxByte⟩
  rw [rxRow_accumulating hr hv hs, decodeRxSel_accumWord, hafter]

/-- Settles O11: a byte 1 of the class `HDR.OTHER` completes the candidate. -/
theorem unrecognisedHeaderIsDropped : Obligations.UnrecognisedHeaderIsDropped := by
  intro i s hr hv hs hc htag hdata
  have hclass : headerClass i.rxByte = .other := (if_neg htag).trans (if_neg hdata)
  refine ⟨?_, dropAfter_byteOne hc .dropShape i.rxByte⟩
  rw [rxRow_accumulating hr hv hs, decodeRxSel_accumWord, completionAfter_byteOne hc, if_pos hclass]

/-! ### The frame -/

/-- The payload bytes of a built frame (R66, R177). -/
theorem dataByte_buildFrame (recon : IdRecon) (cell : Nat → Byte) (n : Nat) {k : Nat} (hk : k < 8) :
    dataByte (buildFrame recon cell n).data k = if k < min (n - 5) 8 then cell (4 + k) else 0 := by
  obtain ⟨h0, h1, h2, h3, h4, h5, h6, h7⟩ := dataByte_packData (payloadByte cell (min (n - 5) 8) 0)
    (payloadByte cell (min (n - 5) 8) 1) (payloadByte cell (min (n - 5) 8) 2) (payloadByte cell (min (n - 5) 8) 3)
    (payloadByte cell (min (n - 5) 8) 4) (payloadByte cell (min (n - 5) 8) 5) (payloadByte cell (min (n - 5) 8) 6)
    (payloadByte cell (min (n - 5) 8) 7)
  interval_cases k <;> assumption

/-- The identifier and the length of a frame lie before its trailer, which is at cell 4 or above (R177). -/
theorem buildFrame_write (recon : IdRecon) (m : Memory) {a : Nat} (ha : 4 ≤ a) (b : Byte) (n : Nat) :
    buildFrame recon (Memory.read (Memory.write m a b)) n =
      { id := (recon (Memory.read m 2) (Memory.read m 3)).setWidth 32
        type := typeStandard
        dlc := loNibble (Memory.read m 1)
        data := (buildFrame idRecon (Memory.read (Memory.write m a b)) n).data } := by
  rw [buildFrame, Memory.read_write_ne m b (show 1 ≠ a by omega), Memory.read_write_ne m b (show 2 ≠ a by omega),
    Memory.read_write_ne m b (show 3 ≠ a by omega)]
  rfl

/-- The trailer of a data-shaped candidate emits its frame, whatever `ID_RECON` is (R177, R186). -/
theorem emitAfter_dataShaped (recon : IdRecon) {s : State} {l : BitVec 4} (hc : s.cur.toNat = l.toNat + 4)
    (h1 : Memory.read s.buf 1 = descriptorBits false l) (b : Byte) :
    emitAfter recon b s =
      .next { s with
        buf := Memory.write s.buf s.cur.toNat b
        sync := false
        cur := 0
        rxEvt := .frame
        rxfValid := true
        rxfId := (recon (Memory.read s.buf 2) (Memory.read s.buf 3)).setWidth 32
        rxfType := typeStandard
        rxfDlc := l
        rxfData := (buildFrame idRecon (Memory.read (Memory.write s.buf s.cur.toNat b)) (l.toNat + 5)).data } := by
  have hl := l.isLt
  have hd : Config.bufDepth = 100 := rfl
  have hlt : s.cur.toNat < Config.bufDepth := by omega
  have hn : (s.storeByte b).cur.toNat = l.toNat + 5 := by rw [storeByte_cur_toNat hlt, hc]
  have hdlc : loNibble (Memory.read s.buf 1) = l := h1 ▸ (descriptorBits_fields false l).2.1
  refine emitAfter_eq_next.2 ⟨hlt, ?_⟩
  rw [hn, State.storeByte_buf, buildFrame_write recon s.buf (by omega), hdlc]
  rfl

/-- The trailer of a data-shaped candidate with `L ≥ 1` completes a frame, whatever its value (R186). -/
theorem completionAfter_dataShaped {s : State} {l : BitVec 4} (hl : 1 ≤ l.toNat)
    (hc : s.cur.toNat = l.toNat + 4) (h0 : Memory.read s.buf 0 = marker)
    (h1 : Memory.read s.buf 1 = descriptorBits false l) (b : Byte) :
    completionAfter b s = .frame := by
  have hl0 : l ≠ 0 := by
    rintro rfl
    cases hl
  rw [completionAfter, show s.cur.toNat + 1 = l.toNat + 5 by omega, completionOf_dataShaped (l := l), if_neg hl0]
  · rw [Memory.read_write_ne _ _ (by omega), h0]
  · rw [Memory.read_write_ne _ _ (by omega), h1]

/-- Settles O9: the candidate is data-shaped of six bytes or more; its payload is read below the trailer. -/
theorem frameIsBuiltAndEmitted : Obligations.FrameIsBuiltAndEmitted := by
  refine ⟨fun _ _ => rfl, fun i s l hr hv hs hl hc h0 h1 => ?_⟩
  rw [← descriptorBits_standard] at h1
  refine ⟨?_, _, emitAfter_dataShaped idRecon hc h1 i.rxByte, rfl, fun k hk => ?_,
    fun recon => emitAfter_dataShaped recon hc h1 i.rxByte⟩
  · rw [rxRow_accumulating hr hv hs, decodeRxSel_accumWord, completionAfter_dataShaped hl hc h0 h1]
  · refine (dataByte_buildFrame idRecon _ _ hk).trans ?_
    rw [Nat.add_sub_cancel]
    split_ifs with hkl
    · exact Memory.read_write_ne _ _ (by omega)
    · rfl

/-! ### A byte in Accumulating -/

/-- The end of a candidate does not clear the buffer (R178), and what goes on keeps its cursor. -/
theorem State.finish_buf_cur (recon : IdRecon) (t : State) :
    (t.finish recon).buf = t.buf ∧ ((t.finish recon).sync = true → (t.finish recon).cur = t.cur) := by
  rcases t.finish_cases recon with ⟨-, h⟩ | ⟨-, h⟩ | ⟨ev, -, h⟩ <;> rw [h]
  · exact ⟨rfl, fun _ => rfl⟩
  · exact ⟨rfl, fun hy => nomatch hy⟩
  · exact ⟨rfl, fun hy => nomatch hy⟩

/-- An edge that consumes a byte in Accumulating stores it at a cell that exists and finishes the candidate there. -/
theorem edge_accumulating {i : Inputs} {s t : State} (hr : i.rst = false) (hv : i.rxValid = true)
    (hs : s.sync = true) (ht : edge i s = .next t) :
    s.cur.toNat < Config.bufDepth ∧ ((s.storeByte i.rxByte).finish idRecon).SameReceive t := by
  obtain ⟨u, hu, rfl⟩ := (edge_eq_next hr).1 ht
  by_cases hc : s.cur.toNat < Config.bufDepth
  · rw [rxEdge_accumulating hv hs hc] at hu
    cases hu
    exact ⟨hc, (txEdge_sameReceive_sameScript i _).1⟩
  · rw [rxEdge_beyond hv hs hc] at hu
    cases hu

/-- Settles O13: the append does not look at the byte, and no row of Accumulating is `RX.SYNC`. -/
theorem accumulatingAppendsAnyByte : Obligations.AccumulatingAppendsAnyByte := by
  intro i s t hr hv hs ht
  obtain ⟨-, hsync, hcur, hbuf, -⟩ := edge_accumulating hr hv hs ht
  obtain ⟨hfbuf, hfcur⟩ := (s.storeByte i.rxByte).finish_buf_cur idRecon
  rw [hbuf, hfbuf, hsync, hcur]
  refine ⟨Memory.read_write_same _ _ _, fun k hk => Memory.read_write_ne _ _ hk, fun h => ?_, hfcur⟩
  rw [rxRow_accumulating hr hv hs, decodeRxSel_accumWord] at h
  cases hk : completionAfter i.rxByte s <;> simp [hk] at h

end Sys2Proof.Machine
end

section
/-! What a receive call gets (R192, R196, R221, R233): a frame exactly after `RX.FRAME`; and from a legal state every
edge goes on (R191, R220). -/

namespace Sys2Proof.Machine

/-- Settles O49: a reset edge always goes on, any other does from a legal state. -/
theorem legalStateNeverStops : Obligations.LegalStateNeverStops := by
  intro s h
  cases hr : s.nextInputs.rst
  · obtain ⟨t, ht, -⟩ := edge_goesOn h.fetched hr
    exact ⟨t, ht⟩
  · exact ⟨_, edge_of_rst hr⟩

/-! ### The edge that emits -/

/-- The end of a candidate emits exactly if the candidate is a frame (R179, R186). -/
theorem State.finish_rxfValid (recon : IdRecon) (t : State) :
    (t.finish recon).rxfValid = true ↔ t.candidate = .frame := by
  unfold State.finish
  cases t.candidate <;> simp

/-- `RX.FRAME` is the row of a frame completed in Accumulating (R186). -/
theorem decodeRxSel_accumWord_eq_rxFrame {b : Byte} {c : Completion} :
    (∃ b', decodeRxSel (0b011#3 ++ b) c = .rxFrame b') ↔ c = .frame := by
  rw [decodeRxSel_accumWord]
  cases c <;> simp

/-- An edge leaves `rxf_valid` up exactly if it ran `RX.FRAME` (R27, R192). -/
theorem edge_rxfValid {i : Inputs} {s t : State} (ht : edge i s = .next t) :
    t.rxfValid = true ↔ ∃ b, rxRow i s = .rxFrame b := by
  cases hr : i.rst
  · obtain ⟨u, hu, rfl⟩ := (edge_eq_next hr).1 ht
    obtain ⟨-, -, -, hvalid, -⟩ := (txEdge_sameReceive_sameScript i u).1
    rw [hvalid]
    cases hv : i.rxValid
    · rw [rxEdge_idle hv] at hu
      cases hu
      simp [rxRow_idle hr hv]
    · cases hs : s.sync
      · rw [rxEdge_searching hv hs] at hu
        cases hu
        rw [rxRow_searching hr hv hs]
        split_ifs <;> simp
      · obtain ⟨hc, -⟩ := edge_accumulating hr hv hs ht
        rw [rxEdge_accumulating hv hs hc] at hu
        cases hu
        rw [rxRow_accumulating hr hv hs, decodeRxSel_accumWord_eq_rxFrame, completionAfter_eq_candidate hc,
          State.finish_rxfValid]
  · rw [edge_of_rst hr] at ht
    cases ht
    simp [(rxRow_eq_rst i s).1 hr]

/-- Settles O45: the frame is on the ports exactly if `rxf_valid` is up. -/
theorem onlyFramesAreReceived : Obligations.OnlyFramesAreReceived := by
  intro i s t ht
  rw [← edge_rxfValid ht, received]
  cases t.rxfValid <;> simp

/-- An edge with no byte emits no frame (R180). -/
theorem edge_rxfValid_of_quiet {o : Inputs} {s t : State} (ht : edge (Arrival.inputs o .quiet) s = .next t) :
    t.rxfValid = false := by
  rw [← Bool.not_eq_true, edge_rxfValid ht, rxRow_idle rfl rfl]
  simp

/-! ### The blocking call -/

/-- The inputs of the edges of a receive call. -/
def arrivalInputs (arrivals : List (Inputs × Arrival)) : List Inputs := arrivals.map fun a => a.2.inputs a.1

/-- No edge of these arrivals emits a frame. -/
def Silent (before : List (Inputs × Arrival)) (s : State) : Prop :=
  ∀ n, 0 < n → n ≤ before.length → ∃ v, runEdges (arrivalInputs (before.take n)) s = .next v ∧ v.rxfValid = false

/-- How a blocking call that is in the state `u` after the arrivals `before` ends there, with `rest` left (R196,
R233). -/
def EndsAfter (arrivals before rest : List (Inputs × Arrival)) (u t : State) (r : ReceiveResult) : Prop :=
  (r = .suspended ∧ arrivals = before ∧ rest = [] ∧ t = u) ∨
  (r = .transportFailure ∧ t = u ∧ ∃ o, arrivals = before ++ (o, .fails) :: rest) ∨
  (∃ o b, arrivals = before ++ (o, .byte b) :: rest ∧ edge (Arrival.inputs o (.byte b)) u = .next t ∧
    t.rxfValid = true ∧ r = .frame ⟨t.rxfId, t.rxfType, t.rxfDlc, t.rxfData⟩)

/-- How a blocking call ends: after some arrivals of which none fails and none emits a frame. -/
def BlockingEnds (arrivals rest : List (Inputs × Arrival)) (s t : State) (r : ReceiveResult) : Prop :=
  ∃ before, (∀ a ∈ before, a.2 ≠ .fails) ∧ Silent before s ∧
    ∃ u, runEdges (arrivalInputs before) s = .next u ∧ EndsAfter arrivals before rest u t r

/-- A call that ends before any edge. -/
theorem BlockingEnds.of_endsAfter_nil {arrivals rest : List (Inputs × Arrival)} {s t : State} {r : ReceiveResult}
    (h : EndsAfter arrivals [] rest s t r) : BlockingEnds arrivals rest s t r :=
  ⟨[], by simp, fun _ h0 hn => absurd h0 (Nat.not_lt.2 hn), s, rfl, h⟩

/-- One arrival more in front. -/
theorem EndsAfter.cons {arrivals before rest : List (Inputs × Arrival)} {u t : State} {r : ReceiveResult}
    (a : Inputs × Arrival) (h : EndsAfter arrivals before rest u t r) :
    EndsAfter (a :: arrivals) (a :: before) rest u t r := by
  rcases h with ⟨hr, rfl, hrest, ht⟩ | ⟨hr, ht, o, rfl⟩ | ⟨o, b, rfl, ht⟩
  · exact .inl ⟨hr, rfl, hrest, ht⟩
  · exact .inr (.inl ⟨hr, ht, o, rfl⟩)
  · exact .inr (.inr ⟨o, b, rfl, ht⟩)

/-- One silent edge more in front. -/
theorem Silent.cons {before : List (Inputs × Arrival)} {a : Inputs × Arrival} {s u : State}
    (hu : edge (a.2.inputs a.1) s = .next u) (hv : u.rxfValid = false) (h : Silent before u) :
    Silent (a :: before) s := by
  intro n h0 hn
  obtain ⟨n, rfl⟩ := Nat.exists_eq_add_one_of_ne_zero h0.ne'
  have hrun : ∀ v, runEdges (arrivalInputs (before.take n)) u = .next v →
      runEdges (arrivalInputs ((a :: before).take (n + 1))) s = .next v :=
    fun v hv => runEdges_cons_eq_next.2 ⟨u, hu, hv⟩
  rcases Nat.eq_zero_or_pos n with rfl | hpos
  · exact ⟨u, hrun u rfl, hv⟩
  · obtain ⟨v, hv, hval⟩ := h n hpos (Nat.le_of_succ_le_succ hn)
    exact ⟨v, hrun v hv, hval⟩

/-- A call whose first edge emits no frame ends as it does from there. -/
theorem BlockingEnds.cons {arrivals rest : List (Inputs × Arrival)} {a : Inputs × Arrival} {s u t : State}
    {r : ReceiveResult} (ha : a.2 ≠ .fails) (hu : edge (a.2.inputs a.1) s = .next u) (hv : u.rxfValid = false)
    (h : BlockingEnds arrivals rest u t r) : BlockingEnds (a :: arrivals) rest s t r := by
  obtain ⟨before, hfails, hsilent, w, hw, hend⟩ := h
  exact ⟨a :: before, List.forall_mem_cons.2 ⟨ha, hfails⟩, hsilent.cons hu hv, w,
    runEdges_cons_eq_next.2 ⟨u, hu, hw⟩, hend.cons a⟩

/-- A blocking call ends as the contract says, by induction over its arrivals. -/
theorem receiveBlocking_ends {arrivals rest : List (Inputs × Arrival)} {s t : State} {r : ReceiveResult}
    (h : receiveBlocking arrivals s = .next (t, r, rest)) : BlockingEnds arrivals rest s t r := by
  induction arrivals generalizing s with
  | nil =>
    cases h
    exact .of_endsAfter_nil (.inl ⟨rfl, rfl, rfl, rfl⟩)
  | cons a arrivals ih =>
    obtain ⟨o, _ | _ | _⟩ := a
    case byte b =>
      obtain ⟨u, hu, h⟩ := andThen_eq_next.1 h
      cases hrec : received u with
      | none =>
        rw [hrec] at h
        exact .cons (by simp) hu (received_eq_none.1 hrec) (ih h)
      | some f =>
        rw [hrec] at h
        cases h
        obtain ⟨hv, hf⟩ := received_eq_some.1 hrec
        exact .of_endsAfter_nil (.inr (.inr ⟨o, b, rfl, hu, hv, congrArg _ hf⟩))
    case quiet =>
      obtain ⟨u, hu, h⟩ := andThen_eq_next.1 h
      exact .cons (by simp) hu (edge_rxfValid_of_quiet hu) (ih h)
    case fails =>
      cases h
      exact .of_endsAfter_nil (.inr (.inl ⟨rfl, rfl, o, rfl⟩))

/-- A blocking call from a legal state answers. -/
theorem receiveBlocking_goesOn (arrivals : List (Inputs × Arrival)) {s : State} (h : s.Inv) :
    ∃ x, receiveBlocking arrivals s = .next x := by
  induction arrivals generalizing s with
  | nil => exact ⟨_, rfl⟩
  | cons a arrivals ih =>
    obtain ⟨o, _ | _ | _⟩ := a
    case byte b =>
      obtain ⟨u, hu, hinv, -⟩ := edge_goesOn (i := Arrival.inputs o (.byte b)) h rfl
      rw [receiveBlocking, hu, andThen_next]
      cases received u with
      | none => exact ih hinv
      | some f => exact ⟨_, rfl⟩
    case quiet =>
      obtain ⟨u, hu, hinv, -⟩ := edge_goesOn (i := Arrival.inputs o .quiet) h rfl
      rw [receiveBlocking, hu, andThen_next]
      exact ih hinv
    case fails => exact ⟨_, rfl⟩

/-- A non-blocking call with a byte makes its edge and gets what that edge emitted. -/
theorem receiveNow_byte {o : Inputs} {b : Byte} {s t : State} {r : ReceiveResult}
    (h : receiveNow o (some b) s = .next (t, r)) :
    edge { o with rst := false, rxValid := true, rxByte := b } s = .next t ∧
    (∀ f, r = .frame f ↔ t.rxfValid = true ∧ f = ⟨t.rxfId, t.rxfType, t.rxfDlc, t.rxfData⟩) ∧
    (r = .noFrame ↔ t.rxfValid = false) := by
  obtain ⟨u, hu, h⟩ := andThen_eq_next.1 h
  simp only [← received_eq_some, ← received_eq_none]
  cases hrec : received u with
  | none =>
    rw [hrec] at h
    cases h
    exact ⟨hu, by simp [hrec], by simp [hrec]⟩
  | some f =>
    rw [hrec] at h
    cases h
    exact ⟨hu, by simp [hrec], by simp [hrec]⟩

/-- Settles O59: the non-blocking call by its one edge, the blocking call by induction over its arrivals. -/
theorem receiveCallsEndAsTheContractSays : Obligations.ReceiveCallsEndAsTheContractSays :=
  ⟨fun _ _ => rfl, fun _ _ _ _ _ => receiveNow_byte, fun _ _ _ _ _ => receiveBlocking_ends,
    fun arrivals _ => receiveBlocking_goesOn arrivals⟩

end Sys2Proof.Machine
end

section
/-! What a dutiful host holds (R234, R263): a request not accepted at an edge is on the ports at the next with the same
fields, and so at every edge up to the one that accepts it. -/

namespace Sys2Proof.Machine

/-! ### From the first edge to the last -/

/-- A dutiful run keeps the duties of its first edge. -/
theorem edgeDuty_of_keepsDuties {h : HostParams} {m : HostMemory} {i : Inputs} {is : List Inputs} {s : State}
    (hd : keepsDuties h m (i :: is) s = true) : edgeDuty h m i = true := by
  rw [keepsDuties, Bool.and_eq_true] at hd
  exact hd.1

section Held
variable {α : Type} {h : HostParams} {accepted : Inputs → State → List α} {m : HostMemory} {i j : Inputs}
  {is : List Inputs} {s u : State}

/-- The first edge of a dutiful run that accepts nothing, and the rest of the run. -/
theorem rest_of_noneAccepted (hd : keepsDuties h m (i :: is ++ [j]) s = true) (hu : runEdges (i :: is) s = .next u)
    (hacc : alongEdges accepted (i :: is) s = []) :
    accepted i s = [] ∧ ∃ w, keepsDuties h (m.after h i s) (is ++ [j]) w = true ∧ runEdges is w = .next u ∧
      alongEdges accepted is w = [] := by
  obtain ⟨w, hw, hu⟩ := runEdges_cons_eq_next.1 hu
  rw [alongEdges_cons _ _ hw, List.append_eq_nil_iff] at hacc
  rw [List.cons_append, keepsDuties_cons h m _ hw, Bool.and_eq_true] at hd
  exact ⟨hacc.1, w, hd.2, hu, hacc.2⟩

/-- What every edge that accepts nothing hands on to the next dutiful edge, the first edge hands on to the last. -/
theorem held_of_keepsDuties {Held : Inputs → Inputs → Prop} (htrans : ∀ {a b c}, Held a b → Held b c → Held a c)
    (hnext : ∀ {m : HostMemory} {a b s}, edgeDuty h (m.after h a s) b = true → accepted a s = [] → Held a b)
    (hd : keepsDuties h m (i :: is ++ [j]) s = true) (hu : runEdges (i :: is) s = .next u)
    (hacc : alongEdges accepted (i :: is) s = []) : Held i j := by
  induction is generalizing i m s with
  | nil =>
    obtain ⟨hi, w, hd, -⟩ := rest_of_noneAccepted hd hu hacc
    exact hnext (edgeDuty_of_keepsDuties hd) hi
  | cons k ks ih =>
    obtain ⟨hi, w, hd, hu, hacc⟩ := rest_of_noneAccepted hd hu hacc
    exact htrans (hnext (edgeDuty_of_keepsDuties hd) hi) (ih hd hu hacc)

end Held

/-! ### The two requests -/

/-- A configuration request at the edge `i` is on the ports at the edge `j` too, with the same codes. -/
def CfgHeld (i j : Inputs) : Prop := i.cfgValid = true → j.cfgValid = true ∧ i.SameCodes j

/-- A frame request at the edge `i` is on the ports at the edge `j` too, with the same frame. -/
def TxfHeld (i j : Inputs) : Prop := i.txfValid = true → j.txfValid = true ∧ i.SameFrame j

theorem CfgHeld.trans {a b c : Inputs} (hab : CfgHeld a b) (hbc : CfgHeld b c) : CfgHeld a c := fun ha => by
  obtain ⟨hb, hs, hf, hm⟩ := hab ha
  obtain ⟨hc, hs', hf', hm'⟩ := hbc hb
  exact ⟨hc, hs'.trans hs, hf'.trans hf, hm'.trans hm⟩

theorem TxfHeld.trans {a b c : Inputs} (hab : TxfHeld a b) (hbc : TxfHeld b c) : TxfHeld a c := fun ha => by
  obtain ⟨hb, hi, ht, hl, hd⟩ := hab ha
  obtain ⟨hc, hi', ht', hl', hd'⟩ := hbc hb
  exact ⟨hc, hi'.trans hi, ht'.trans ht, hl'.trans hl, hd'.trans hd⟩

/-- After an edge that accepts no configuration request, the next dutiful edge holds the one presented (R263). -/
theorem cfgHeld_of_edgeDuty {h : HostParams} {m : HostMemory} {a b : Inputs} {s : State}
    (hd : edgeDuty h (m.after h a s) b = true) (hacc : cfgAccepted a s = false) : CfgHeld a b := by
  obtain ⟨-, -, ⟨-, hhold, -⟩, -⟩ := (edgeDuty_iff h _ b).1 hd
  exact fun ha => hhold ⟨ha, hacc⟩

/-- After an edge that accepts no frame request, the next dutiful edge holds the one presented (R234, R263). -/
theorem txfHeld_of_edgeDuty {h : HostParams} {m : HostMemory} {a b : Inputs} {s : State}
    (hd : edgeDuty h (m.after h a s) b = true) (hacc : txfAccepted a s = false) : TxfHeld a b := by
  obtain ⟨-, -, -, -, hhold, -⟩ := (edgeDuty_iff h _ b).1 hd
  exact fun ha => hhold ⟨ha, hacc⟩

/-! ### The row that accepts a held request -/

/-- A held configuration request is accepted by `TX.CFG` with the codes first presented (R144). -/
theorem txRow_of_cfgHeld {i j : Inputs} {s : State} (hsame : i.SameCodes j) (hacc : cfgAccepted j s = true) :
    txRow j s = .txCfg i.cfgSpeed i.cfgFtype i.cfgMode := by
  obtain ⟨hr, hb, hc⟩ := cfgAccepted_iff.1 hacc
  obtain ⟨hspeed, hftype, hmode⟩ := hsame
  rw [(cfgRequest_accepted hr hb hc).2.2, hspeed, hftype, hmode]

/-- A type that is neither `10` nor `11` is `00` or `01` (R42). -/
theorem txfType_of_carried {ty : BitVec 2} (h2 : ty ≠ typeError) (h3 : ty ≠ 0b11) : ty = 0b00 ∨ ty = 0b01 := by
  revert h2 h3
  revert ty
  decide

/-- A held frame request of a kind the link carries is accepted by the row of the type first presented, with the frame
first presented (R145, R234). -/
theorem txRow_of_txfHeld {i j : Inputs} {s : State} (hkind : j.keepsFrameDuty) (hsame : i.SameFrame j)
    (hacc : txfAccepted j s = true) :
    txRow j s = if i.txfType = 0b01 then .txFrameExt i.txfId i.txfDlc i.txfData
      else .txFrameStd i.txfId i.txfDlc i.txfData := by
  obtain ⟨hr, hb, hc, hf⟩ := txfAccepted_iff.1 hacc
  obtain ⟨h2, h3, -⟩ := hkind hf
  obtain ⟨hid, htype, hdlc, hdata⟩ := hsame
  rw [(txfRequest_accepted hr hb hc hf).2, hid, hdlc, hdata, ← htype]
  rcases txfType_of_carried h2 h3 with hty | hty <;> simp [hty]

/-- Settles O57: the request is handed on from edge to edge up to the last, whose row is that of its fields. -/
theorem dutifulRequestIsHeld : Obligations.DutifulRequestIsHeld := by
  intro h m i is j s u hd hu
  refine ⟨fun hi hnone => ?_, fun hi hnone => ?_⟩
  · have hheld : CfgHeld i j := held_of_keepsDuties CfgHeld.trans
      (fun hb ha => cfgHeld_of_edgeDuty hb (by simpa using ha)) hd hu hnone
    obtain ⟨hj, hsame⟩ := hheld hi
    exact ⟨hj, hsame, txRow_of_cfgHeld hsame⟩
  · have hheld : TxfHeld i j := held_of_keepsDuties TxfHeld.trans
      (fun hb ha => txfHeld_of_edgeDuty hb (by simpa using ha)) hd hu hnone
    obtain ⟨hj, hsame⟩ := hheld hi
    obtain ⟨m', -, hlast⟩ := becomes_of_keepsDuties_concat hd hu
    obtain ⟨-, -, -, hkind, -⟩ := (edgeDuty_iff h m' j).1 hlast
    exact ⟨hj, hsame, txRow_of_txfHeld hkind hsame⟩

end Sys2Proof.Machine
end

section
namespace Sys2Proof.Machine

/-! ### The reset edge (R251) -/

/-- With `rst = 1` neither request is ready and nothing is taken, on either side (R140, R141). -/
theorem nothingTaken_of_rst {i : Inputs} {s : State} (hr : i.rst = true) :
    cfgReady i s = false ∧ txfReady i s = false ∧ cfgAccepted i s = false ∧ txfAccepted i s = false ∧
    transferred i s = false := by
  simp [cfgReady, txfReady, cfgAccepted, txfAccepted, transferred, hr]

/-- Settles O1: both the edge and the row `RST` end in `resetBlock`, whose fields are the reset values of R43 beside the
kept `buf`, `tx_pkt` and script; `rst` shuts every handshake. -/
theorem resetEdgeSetsEveryRegister : Obligations.ResetEdgeSetsEveryRegister := by
  intro i s hr
  have hrow : exec .rst s = .next s.resetBlock := rfl
  exact ⟨(edge_of_rst hr).trans hrow.symm, hrow, nothingTaken_of_rst hr⟩

end Sys2Proof.Machine
end
